-- ==== Sys2Proof/Word.lean ====
section
/-! DEFINITION. The widths of the part: a byte, a bus word of four bytes, a device clock value. -/

namespace Sys2Proof

/-- A byte, 00h..FFh. -/
abbrev Byte := BitVec 8

/-- One aligned four-byte word of the local bus (R171). -/
abbrev BusWord := BitVec 32

/-- A value of the device clock: microseconds modulo 2^48 (R185). -/
abbrev Clock := BitVec 48

end Sys2Proof
end

