-- ==== Sys2Proof/Syntax.lean ====
section
/-! DEFINITION. The commands of the part: one constructor for each row of spec/opcode_table.json. -/

namespace Sys2Proof

/-- The three ports (00_scope 1.3, R171). -/
inductive Port where
  | traffic
  | key
  | operations
deriving DecidableEq, Repr

/-- The events of the part.  A request's operands lie in the record that its master posted, so the taking of a
request names only the port whose controller takes it (R173).  A tunnel, an offset or a word is an operand where the
row's event concerns one. -/
inductive Instr where
  -- power, settings and the clock (R182, R183, R185)
  | powerOnReset
  | loadComplete
  | saveComplete
  | deviceClockAdvance
  -- accesses to a port window (R171, R172, R175, R176, R177, R22)
  | requestPost (p : Port) (w : BusWord)
  | portWindowWrite (p : Port) (off : Nat) (w : BusWord)
  | responseRead (p : Port) (off : Nat)
  | noticeRead (p : Port) (off : Nat)
  | statusRead (p : Port)
  | cellWindowAccess (p : Port) (off : Nat) (write : Option BusWord)
  -- the taking of the request at the head of a port's queue (R173)
  | claimCells (p : Port)
  | releaseCells (p : Port)
  | sendFrame (p : Port)
  | receiveFrame (p : Port)
  | readService (p : Port)
  | sendDialogue (p : Port)
  | installKey (p : Port)
  | discardNext (p : Port)
  | readSlots (p : Port)
  | promote (p : Port)
  | retirePrevious (p : Port)
  | openTunnel (p : Port)
  | closeTunnel (p : Port)
  | setHolds (p : Port)
  | readTunnel (p : Port)
  | writeProfile (p : Port)
  | readProfile (p : Port)
  | readEngine (p : Port)
  | ackFault (p : Port)
  | readCondition (p : Port)
  | readDeviceFaults (p : Port)
  | startProof (p : Port)
  | stopProof (p : Port)
  | restoreTunnel (p : Port)
  | writePattern (p : Port)
  | readProof (p : Port)
  | setMonitor (p : Port)
  | freezeMonitors (p : Port)
  | thawMonitors (p : Port)
  | clearMonitors (p : Port)
  | readMonitors (p : Port)
  | saveSettings (p : Port)
  | deviceRestart (p : Port)
  -- the posting of a PORT_RESET record with this tag (R178)
  | portReset (p : Port) (tag : BitVec 16)
  -- completions (R62, R109, R112)
  | derivationComplete
  | outboundCompletion
  | inboundCompletion
  -- expiries of a tunnel's deadlines, and of the echo deadline
  | graceExpiry (t : Nat)
  | softAgeExpiry (t : Nat)
  | hardAgeExpiry (t : Nat)
  | intervalExpiry (t : Nat)
  | silenceExpiry (t : Nat)
  | keepaliveExpiry (t : Nat)
  | holdExpiry (t : Nat)
  | echoDeadlineExpiry
  -- the proof engine's own starts (R141, R144)
  | retryStart
  | proofBuildAttempt
  | unknownRequestCode (p : Port)
deriving DecidableEq, Repr

end Sys2Proof
end

