-- ==== Sys2Proof/Machine/Types.lean ====
section
/-! DEFINITION. The kinds of things the part holds: cells, tunnels, keys, frames, faults, proofs, monitors, records. -/

namespace Sys2Proof.Machine

/-! ### Data by key -/

/-- Values by number, in one canonical form: numbers strictly rising, no entry equal to the value of an unlisted
number. -/
abbrev SMap (α : Type) := List (Nat × α)

/-- The frame store's bytes by address, byte b of cell c at c × 256 + b (R22).  An unlisted address reads zero. -/
abbrev Memory := List Host.Cell

/-! ### Cells (R15, R16) -/

/-- A master that can own a cell. -/
inductive Owner where
  | traffic
  | key
deriving DecidableEq, Repr

/-- The two credit pools (R16). -/
inductive Pool where
  | regular
  | reserved
deriving DecidableEq, Repr

/-- The five states of a cell; CLAIMED and DONE have an owner (R15). -/
inductive CellState where
  | free
  | claimed (owner : Owner)
  | queued
  | inWork
  | done (owner : Owner)
deriving DecidableEq, Repr

/-- A cell: its state, and the pool it is charged to when it is not FREE (R16). -/
structure Cell where
  state  : CellState
  charge : Option Pool
deriving DecidableEq, Repr

/-- The cell store: the cells that are not FREE, and the bytes that are not zero. -/
structure CellStore where
  cells : SMap Cell
  bytes : Memory
deriving DecidableEq, Repr

/-! ### Faults (8.6) -/

/-- The seven tunnel fault kinds, in the order of 8.6. -/
inductive TunnelFault where
  | authStorm
  | replayStorm
  | epochDrift
  | shopSilent
  | keyExpired
  | proofFailed
  | tunnelFailed
deriving DecidableEq, Repr

/-- The four device fault kinds, in the order of 8.6. -/
inductive DeviceFault where
  | keystoreLow
  | reserveExhausted
  | monitorOverflow
  | settingsDefaulted
deriving DecidableEq, Repr

/-- The report state of a set latch (R119). -/
inductive ReportState where
  | unreported
  | reported
  | silent
deriving DecidableEq, Repr

/-- A set latch: report state, stamp, observed count, and the detail and isolated mark held with it (R119, R133). -/
structure Latch where
  report   : ReportState
  stamp    : Clock
  observed : Nat
  detail   : Nat
  isolated : Bool
deriving DecidableEq, Repr

/-- The seven fault latches of a tunnel; none is a clear latch (R119). -/
structure TunnelLatches where
  authStorm    : Option Latch
  replayStorm  : Option Latch
  epochDrift   : Option Latch
  shopSilent   : Option Latch
  keyExpired   : Option Latch
  proofFailed  : Option Latch
  tunnelFailed : Option Latch
deriving DecidableEq, Repr

/-- The four device fault latches (R130). -/
structure DeviceLatches where
  keystoreLow       : Option Latch
  reserveExhausted  : Option Latch
  monitorOverflow   : Option Latch
  settingsDefaulted : Option Latch
deriving DecidableEq, Repr

/-- A profile's report set (R47). -/
structure ReportSet where
  authStorm    : Bool
  replayStorm  : Bool
  epochDrift   : Bool
  shopSilent   : Bool
  keyExpired   : Bool
  proofFailed  : Bool
  tunnelFailed : Bool
deriving DecidableEq, Repr

/-- A profile's action set, drawn from the four kinds that may be in it (R47). -/
structure ActionSet where
  authStorm   : Bool
  replayStorm : Bool
  epochDrift  : Bool
  shopSilent  : Bool
deriving DecidableEq, Repr

/-- The device report set (R130). -/
structure DeviceSet where
  keystoreLow       : Bool
  reserveExhausted  : Bool
  monitorOverflow   : Bool
  settingsDefaulted : Bool
deriving DecidableEq, Repr

/-! ### Profiles and settings (R47, R106, R153, R181) -/

/-- A profile: the seventeen fields of R47.  Ages, intervals, limits and the hold time are in seconds, the grace in
milliseconds. -/
structure Profile where
  softFrames       : Nat
  hardFrames       : Nat
  softAge          : Nat
  hardAge          : Nat
  grace            : Nat
  followPeer       : Bool
  keepalive        : Nat
  silence          : Nat
  interval         : Nat
  authThreshold    : Nat
  replayThreshold  : Nat
  epochThreshold   : Nat
  persistence      : Nat
  report           : ReportSet
  action           : ActionSet
  holdTime         : Nat
  retryLimit       : Nat
deriving DecidableEq, Repr

/-- The three groups of a profile (R47). -/
inductive ProfileGroup where
  | keys
  | condition
  | faults
deriving DecidableEq, Repr

/-- The four scheduler marks; the rescue limit is in microseconds (R106). -/
structure Marks where
  high        : Nat
  low         : Nat
  rescueLimit : Nat
  rescueBatch : Nat
deriving DecidableEq, Repr

/-- An entry of the pattern table; length 0 is an inactive entry (R153). -/
structure Pattern where
  length : Nat
  seed   : Nat
  step   : Nat
deriving DecidableEq, Repr

/-- The items of the settings image (R181). -/
structure Items where
  profiles     : List Profile
  patterns     : List Pattern
  marks        : Marks
  lowMark      : Nat
  deviceReport : DeviceSet
deriving DecidableEq, Repr

/-- The settings image: its items and whether its integrity check matches them (R181). -/
structure Image where
  items      : Items
  checkMatch : Bool
deriving DecidableEq, Repr

/-- A save under way: the copy taken, and the tag of the response owed, if it still is (R183). -/
structure Save where
  copy : Items
  owed : Option (BitVec 16)
deriving DecidableEq, Repr

/-! ### Keys (R51, R54, R55, R59) -/

/-- A key store entry: free, in use without material, or holding the outbound and the inbound key (R51). -/
inductive KeyEntry where
  | free
  | blank
  | keyed (outbound inbound : BitVec 256)
deriving DecidableEq, Repr

/-- A key notice flag: no, unreported or reported, with a reason when not no (R91). -/
inductive Flag (ρ : Type) where
  | no
  | unreported (why : ρ)
  | reported (why : ρ)
deriving DecidableEq, Repr

/-- Why renewal is due (R55). -/
inductive RenewalReason where
  | frames
  | age
deriving DecidableEq, Repr

/-- Why a key can no longer encipher (R55). -/
inductive ExpiredReason where
  | spent
  | age
deriving DecidableEq, Repr

/-- A key record (R55).  `accepted` lists the accepted set from its highest number down.  The followed flag keeps
the epoch that became PREVIOUS at the follow, which its notice names (R91). -/
structure KeyRecord where
  epoch         : Nat
  entry         : Nat
  outCount      : Nat
  ageStart      : Option Clock
  softDeadline  : Option Clock
  hardDeadline  : Option Clock
  highest       : Nat
  accepted      : List Nat
  renewal       : Flag RenewalReason
  expired       : Flag ExpiredReason
  followed      : Flag (Option Nat)
  graceDeadline : Option Clock
  bound         : Bool
  retirePending : Bool
deriving DecidableEq, Repr

/-- The NEXT key: READY, or DERIVING (R54). -/
structure NextKey where
  ready : Bool
  key   : KeyRecord
deriving DecidableEq, Repr

/-- The states of a CURRENT key (R54). -/
inductive CurrentState where
  | active
  | spent
  | expired
deriving DecidableEq, Repr

/-- The CURRENT key (R54). -/
structure CurrentKey where
  state : CurrentState
  key   : KeyRecord
deriving DecidableEq, Repr

/-- The three key slots of a tunnel (R54). -/
inductive Slot where
  | next
  | current
  | previous
deriving DecidableEq, Repr

/-- A derivation job; `owed` is the tag of the response it owes to the key port, if it still does (R59). -/
structure Job where
  tunnel : Nat
  epoch  : Nat
  entry  : Nat
  secret : BitVec 256
  owed   : Option (BitVec 16)
deriving DecidableEq, Repr

/-- The two direction keys of an epoch: head office to shop, and shop to head office (R8). -/
inductive KeyDirection where
  | outbound
  | inbound
deriving DecidableEq, Repr

/-- What a holder of a direction key sealed into a frame: the key, the header bytes and the payload (R7). -/
structure Sealed where
  key     : BitVec 256
  header  : List Byte
  payload : List Byte
deriving DecidableEq, Repr

/-- The key unit: the entries in use, the derivation queue, and the key-store low mark in use (R51, R61, R71). -/
structure KeyUnit where
  entries : SMap KeyEntry
  jobs    : List Job
  lowMark : Nat
deriving DecidableEq, Repr

/-! ### Tunnels (R32, R119) -/

/-- The six tunnel states (R32). -/
inductive TunnelState where
  | empty
  | provisioned
  | inService
  | isolated
  | failed
  | closing
deriving DecidableEq, Repr

/-- The service levels (R44). -/
inductive ServiceLevel where
  | full
  | sendOnly
  | receiveOnly
  | stopped
deriving DecidableEq, Repr

/-- The outbound hold causes (R43). -/
structure OutCauses where
  ops        : Bool
  keySpent   : Bool
  keyExpired : Bool
deriving DecidableEq, Repr

/-- One count for each storm kind (R119). -/
structure StormCounts where
  authFail  : Nat
  replay    : Nat
  epochMiss : Nat
deriving DecidableEq, Repr

/-- The inbound outcomes that a condition record counts (R121). -/
inductive Counted where
  | authFail
  | replay
  | epochMiss
  | malformed
  | notInService
  | inboundHeld
  | keyUnusable
deriving DecidableEq, Repr

/-- The seven outcome totals (R119). -/
structure Totals where
  authFail     : Nat
  replay       : Nat
  epochMiss    : Nat
  malformed    : Nat
  notInService : Nat
  inboundHeld  : Nat
  keyUnusable  : Nat
deriving DecidableEq, Repr

/-- A condition record (R119). -/
structure Condition where
  counts            : StormCounts
  runs              : StormCounts
  totals            : Totals
  keepalivesSent    : Nat
  keepalivesSkipped : Nat
  intervalStart     : Option Clock
  intervalDeadline  : Option Clock
  silenceDeadline   : Option Clock
  keepaliveDeadline : Option Clock
  outstanding       : Bool
  latches           : TunnelLatches
deriving DecidableEq, Repr

/-- A tunnel record (R32).  `closeTag` is the tag of the CLOSE_TUNNEL response owed, if one is (R39). -/
structure Tunnel where
  state        : TunnelState
  shop         : Option (BitVec 24)
  profile      : Option Nat
  outCauses    : OutCauses
  inOps        : Bool
  retryCount   : Nat
  holdDeadline : Option Clock
  frameCount   : Nat
  inDerivation : Bool
  underProof   : Bool
  closeTag     : Option (BitVec 16)
  condition    : Condition
  next         : Option NextKey
  current      : Option CurrentKey
  previous     : Option KeyRecord
deriving DecidableEq, Repr

/-! ### Frames and the engine (R2, R3, R94, R95) -/

/-- The five frame kinds (R3). -/
inductive FrameKind where
  | data
  | keepalive
  | proof
  | proofEcho
  | dialogue
deriving DecidableEq, Repr

/-- The fields of a frame header (R2). -/
structure Header where
  format    : Nat
  kind      : Nat
  epoch     : Nat
  index     : Nat
  direction : Nat
  shop      : Nat
  sequence  : Nat
  length    : Nat
deriving DecidableEq, Repr

/-- The three work queues (R94). -/
inductive Queue where
  | control
  | settle
  | bulk
deriving DecidableEq, Repr

/-- The submitting party of a frame (R94). -/
inductive Party where
  | trafficPort
  | keyPort
  | conditionMonitor
  | proofEngine
deriving DecidableEq, Repr

/-- The direction of a frame: outbound with its kind, or inbound with the kind byte read at submission (R94). -/
inductive Flow where
  | outbound (kind : FrameKind)
  | inbound (kindByte : Byte)
deriving DecidableEq, Repr

/-- A queue entry (R94).  `content` is the bytes submitted, in the frame's order: the payload of an outbound frame,
the whole of an inbound one; the frame worked at take is these bytes, whatever an access that meets its completion
stores in its cells meanwhile (R4, R23; log 40).  `reserved` says that a GENERATED place is reserved for the frame,
`lost` that its announcement was lost by a traffic port reset (R96).  A proof frame carries its serial and proof
index (R145). -/
structure Frame where
  party    : Party
  tag      : BitVec 16
  tunnel   : Nat
  flow     : Flow
  cells    : List Nat
  content  : List Byte
  queuedAt : Clock
  reserved : Bool
  lost     : Bool
  orphan   : Bool
  proof    : Option (BitVec 32 × Nat)
deriving DecidableEq, Repr

/-- The length of an outbound frame, the size of an inbound one (R94). -/
def Frame.size (f : Frame) : Nat := f.content.length

/-- The frame in work: its queue entry, the queue it came from, the key store entry of the record it bound, and
the sequence number an outbound frame took (R95). -/
structure InWork where
  frame    : Frame
  queue    : Queue
  entry    : Nat
  sequence : Nat
deriving DecidableEq, Repr

/-- The two modes that a rescue can leave and return to (R104, R105). -/
inductive BaseMode where
  | normal
  | settleFirst
deriving DecidableEq, Repr

/-- The scheduler mode, with the return mode and batch count of a rescue (R105). -/
inductive Mode where
  | base (m : BaseMode)
  | rescue (back : BaseMode) (batch : Nat)
deriving DecidableEq, Repr

/-- The four turns of the NORMAL pointer (R103). -/
inductive Turn where
  | settle1
  | settle2
  | settle3
  | bulk
deriving DecidableEq, Repr

/-- The cipher engine and scheduler, with the scheduler marks in use (R94, R95, R103..R106). -/
structure Engine where
  control : List Frame
  settle  : List Frame
  bulk    : List Frame
  inWork  : Option InWork
  mode    : Mode
  turn    : Turn
  marks   : Marks
deriving DecidableEq, Repr

/-! ### Proofs (R142, R147) -/

/-- Who asked for a proof (R142). -/
inductive Purpose where
  | operations
  | retry
deriving DecidableEq, Repr

/-- Whether a proof stops at its first miss (R142). -/
inductive ProofMode where
  | stopFirst
  | continuous
deriving DecidableEq, Repr

/-- The phase of a proof, with the outstanding serial and the echo deadline where they are present (R142). -/
inductive Phase where
  | waitCell
  | inFlight (serial : BitVec 32)
  | awaitEcho (serial : BitVec 32) (deadline : Clock)
deriving DecidableEq, Repr

/-- The proof record (R142). -/
structure ProofRecord where
  tunnel    : Nat
  purpose   : Purpose
  mode      : ProofMode
  requested : Nat
  completed : Nat
  entry     : Nat
  phase     : Phase
  misses    : List Nat
  sent      : Nat
  strays    : Nat
deriving DecidableEq, Repr

/-- How a proof ended (R149). -/
inductive ProofResult where
  | passed
  | missed
  | stopped
  | aborted
deriving DecidableEq, Repr

/-- Why a proof was aborted (R149). -/
inductive AbortCause where
  | outboundCause
  | isolated
  | closing
  | keyUnusable
  | notInService
deriving DecidableEq, Repr

/-- The kind of a miss (R147). -/
inductive MissKind where
  | mismatch
  | timeout
deriving DecidableEq, Repr

/-- The capture record (R147). -/
structure Capture where
  tunnel   : Nat
  round    : Nat
  entry    : Nat
  serial   : BitVec 32
  kind     : MissKind
  length   : Option Nat
  offset   : Option Nat
  expected : Option Byte
  received : Option Byte
deriving DecidableEq, Repr

/-- The last result (R142). -/
structure LastResult where
  tunnel    : Nat
  purpose   : Purpose
  mode      : ProofMode
  result    : ProofResult
  completed : Nat
  sent      : Nat
  misses    : Nat
  strays    : Nat
  ended     : Clock
deriving DecidableEq, Repr

/-- The proof engine: the running proof, the serial counter, the capture record, the last result, the pattern table
and the retry queue (R141, R142). -/
structure ProofUnit where
  running  : Option ProofRecord
  serial   : BitVec 32
  capture  : Option Capture
  last     : Option LastResult
  patterns : List Pattern
  retry    : List Nat
deriving DecidableEq, Repr

/-! ### The monitor bank (R159, R160, 10.2) -/

/-- The event sources of 10.2, in its order. -/
inductive EventSource where
  | framesSent
  | framesAccepted
  | authFail
  | replay
  | epochMiss
  | malformed
  | dialoguesDropped
  | keepalivesSent
  | keepalivesSkipped
  | promotions
  | follows
  | earlyRetires
  | derivations
  | claimsRefused
  | settleFirstEntries
  | bulkRescueEntries
  | faultsLatched
  | proofMisses
  | strayEchoes
deriving DecidableEq, Repr

/-- The level sources of 10.2, in its order. -/
inductive LevelSource where
  | settleOccupancy
  | bulkOccupancy
  | freeCells
  | freeKeyEntries
  | engineBusy
deriving DecidableEq, Repr

/-- The source of a monitor (R159). -/
inductive Source where
  | none
  | event (e : EventSource)
  | level (l : LevelSource)
deriving DecidableEq, Repr

/-- The filter of a monitor (R159). -/
inductive Filter where
  | all
  | one (tunnel : Nat)
  | profile (number : Nat)
deriving DecidableEq, Repr

/-- The mode of a monitor (R159). -/
inductive CountMode where
  | count
  | duration
  | edge
deriving DecidableEq, Repr

/-- The side of the threshold that a level monitor counts (R159). -/
inductive Compare where
  | atOrAbove
  | below
deriving DecidableEq, Repr

/-- A monitor (R159); `held` is present for an EDGE monitor. -/
structure Monitor where
  counter   : BitVec 40
  overflow  : Bool
  source    : Source
  filter    : Filter
  mode      : CountMode
  compare   : Compare
  threshold : Nat
  freeze    : Bool
  held      : Option Bool
deriving DecidableEq, Repr

/-- Why the bank is frozen (R160). -/
inductive FreezeCause where
  | request
  | overflow
  | restart
deriving DecidableEq, Repr

/-- The state of the bank (R160). -/
inductive BankState where
  | counting
  | frozen (cause : FreezeCause)
deriving DecidableEq, Repr

/-- The monitor bank (R159, R160).  `freezeDue` is the model's own: a counter with freeze on overflow has wrapped in
the event under way, and the freeze is made when all the event's advances have been (R166). -/
structure Bank where
  monitors  : List Monitor
  state     : BankState
  elapsed   : Clock
  freezeDue : Bool
deriving DecidableEq, Repr

/-! ### Responses (R175) -/

/-- The statuses, in the order of R175. -/
inductive Status where
  | done
  | wrongPort
  | badRequest
  | noTunnel
  | notOwner
  | tooFewCells
  | queueFull
  | noticeFull
  | noCells
  | wrongState
  | shopInUse
  | slotBusy
  | epochConflict
  | keystoreFull
  | deriveFull
  | noSuchEpoch
  | proofBusy
  | busy
  | tunnelClosed
deriving DecidableEq, Repr

/-- The outcomes, in the order of R175. -/
inductive Result where
  | none
  | sent
  | handed
  | discarded
  | accepted
  | consumed
  | diverted
  | dialogueDropped
  | tunnelClosed
  | notInService
  | outboundHeld
  | inboundHeld
  | keyUnusable
  | malformed
  | epochMiss
  | authFail
  | replay
  | promoted
  | alreadyCurrent
  | retired
  | retirePending
  | cleared
  | notSet
  | frozen
  | alreadyFrozen
  | counting
  | alreadyCounting
deriving DecidableEq, Repr

/-- The state of a key slot as a read reports it (R54, R67). -/
inductive SlotState where
  | absent
  | underDerivation
  | ready
  | active
  | spent
  | expired
  | draining
deriving DecidableEq, Repr

/-- What READ_SLOTS tells of a slot that is not ABSENT (R67). -/
structure KeyView where
  epoch         : Nat
  entry         : Nat
  bound         : Bool
  retirePending : Bool
  outCount      : Nat
  highest       : Nat
  renewal       : Flag RenewalReason
  expired       : Flag ExpiredReason
  followed      : Flag (Option Nat)
deriving DecidableEq, Repr

/-- What READ_SLOTS returns (R67). -/
structure SlotsView where
  state         : TunnelState
  nextState     : SlotState
  next          : Option KeyView
  currentState  : SlotState
  current       : Option KeyView
  previousState : SlotState
  previous      : Option KeyView
  currentStart  : Option Clock
  currentAge    : Option Nat
  previousStart : Option Clock
  previousAge   : Option Nat
  hardDeadline  : Option Clock
  graceDeadline : Option Clock
  freeEntries   : Nat
  jobs          : Nat
  place         : Option Nat
deriving DecidableEq, Repr

/-- What READ_TUNNEL tells of a slot that is not ABSENT: its entry number, epoch and state (R52), and its marks
(R70). -/
structure SlotView where
  epoch         : Nat
  entry         : Nat
  state         : SlotState
  bound         : Bool
  retirePending : Bool
deriving DecidableEq, Repr

/-- What READ_TUNNEL returns (R46, R52, R70). -/
structure TunnelView where
  state         : TunnelState
  level         : ServiceLevel
  outCauses     : OutCauses
  inOps         : Bool
  shop          : Option (BitVec 24)
  profile       : Option Nat
  retryCount    : Nat
  holdDeadline  : Option Clock
  awaitingRetry : Bool
  frameCount    : Nat
  inDerivation  : Bool
  underProof    : Bool
  next          : Option SlotView
  current       : Option SlotView
  previous      : Option SlotView
deriving DecidableEq, Repr

/-- What READ_ENGINE tells of the frame in work (R107). -/
structure WorkView where
  tunnel : Nat
  flow   : Flow
  queue  : Queue
deriving DecidableEq, Repr

/-- What READ_ENGINE returns (R107). -/
structure EngineView where
  mode           : Mode
  turn           : Turn
  control        : Nat
  settle         : Nat
  bulk           : Nat
  controlWaited  : Option Nat
  settleWaited   : Option Nat
  bulkWaited     : Option Nat
  inWork         : Option WorkView
  placesReserved : Nat
  marks          : Marks
deriving DecidableEq, Repr

/-- What READ_CONDITION returns (R137). -/
structure ConditionView where
  state             : TunnelState
  counts            : StormCounts
  intervalRun       : Option Nat
  runs              : StormCounts
  totals            : Totals
  keepalivesSent    : Nat
  keepalivesSkipped : Nat
  outstanding       : Bool
  intervalDeadline  : Option Clock
  silenceDeadline   : Option Clock
  keepaliveDeadline : Option Clock
  latches           : TunnelLatches
deriving DecidableEq, Repr

/-- What READ_DEVICE_FAULTS returns (R138). -/
structure DeviceView where
  latches       : DeviceLatches
  reportSet     : DeviceSet
  notices       : Nat
  proofReserved : Bool
  waiting       : Nat
deriving DecidableEq, Repr

/-- What READ_PROOF returns (R157). -/
structure ProofView where
  running   : Option ProofRecord
  echoLeft  : Option Nat
  capture   : Option Capture
  last      : Option LastResult
  serial    : BitVec 32
  queued    : Nat
  head      : Option Nat
  patterns  : List Pattern
deriving DecidableEq, Repr

/-- What READ_MONITORS tells of one monitor (R169); the level and whether the condition holds on it are given for a
level source. -/
structure MonitorView where
  counter   : BitVec 40
  overflow  : Bool
  source    : Source
  filter    : Filter
  mode      : CountMode
  compare   : Compare
  threshold : Nat
  freeze    : Bool
  level     : Option (Nat × Bool)
deriving DecidableEq, Repr

/-- What READ_MONITORS returns (R169). -/
structure BankView where
  state    : BankState
  elapsed  : Clock
  clock    : Clock
  monitors : List MonitorView
deriving DecidableEq, Repr

/-- The values of one group of a profile (R47, R50). -/
inductive GroupValues where
  | keys (softFrames hardFrames softAge hardAge grace : Nat) (followPeer : Bool)
  | condition (keepalive silence interval authThreshold replayThreshold epochThreshold persistence : Nat)
  | faults (report : ReportSet) (action : ActionSet) (holdTime retryLimit : Nat)
deriving DecidableEq, Repr

/-- What a response carries beside its header. -/
inductive Body where
  /-- nothing -/
  | empty
  /-- the cells granted, or the cells of a frame in frame order (R17, R110, R117) -/
  | cells (numbers : List Nat)
  /-- the pool's headroom (R17) -/
  | headroom (n : Nat)
  /-- a SEND_FRAME that completed SENT (R109) -/
  | sent (tunnel epoch sequence size : Nat) (cells : List Nat)
  /-- a SEND_DIALOGUE that was handed over (R109), or discarded: what a DISCARDED response carries is not stated
  (R118; log 38) -/
  | handed (tunnel epoch sequence : Nat)
  /-- the header values of an inbound frame that was not accepted (R111, R112) -/
  | inbound (kind epoch sequence : Nat)
  /-- an inbound frame that was accepted (R112) -/
  | accepted (kind epoch sequence length : Nat) (cells : List Nat)
  /-- the service view (R46) -/
  | service (state : TunnelState) (level : ServiceLevel) (out : OutCauses) (inOps : Bool) (epoch : Option Nat)
  /-- an installation that completed (R62) -/
  | installed (tunnel epoch entry : Nat)
  /-- the epoch discarded, or the PREVIOUS epoch (R66, R90) -/
  | epoch (n : Nat)
  | slots (v : SlotsView)
  /-- the new CURRENT epoch, the epoch that became PREVIOUS, and the epochs retired or marked (R72) -/
  | promoted (current : Nat) (previous : Option Nat) (retired : List Nat)
  /-- the two cause sets after the change (R45) -/
  | holds (out : OutCauses) (inOps : Bool)
  | tunnel (v : TunnelView)
  /-- the fields of a group of a profile, and the number of tunnels that name it (R50) -/
  | profile (values : GroupValues) (tunnels : Nat)
  | engine (v : EngineView)
  /-- the stamp and observed count that a cleared latch held (R135) -/
  | cleared (stamp : Clock) (observed : Nat)
  | condition (v : ConditionView)
  | device (v : DeviceView)
  | proof (v : ProofView)
  /-- the counter replaced and the overflow latch cleared (R165) -/
  | replaced (counter : BitVec 40) (overflow : Bool)
  /-- the elapsed counter (R167) -/
  | elapsed (n : Clock)
  | bank (v : BankView)
  /-- the requests discarded and the cells freed (R178) -/
  | portReset (requests cells : Nat)
deriving DecidableEq, Repr

/-- A response: the fields of its header but the number of records, and its body (R175). -/
structure Response where
  tag    : BitVec 16
  code   : Nat
  status : Status
  result : Result
  body   : Body
deriving DecidableEq, Repr

/-- One record of a response: its index within the response and the number of the response's records (R175). -/
structure ResponseRecord where
  response : Response
  index    : Nat
  records  : Nat
deriving DecidableEq, Repr

/-! ### Notices (R177) -/

/-- Who produced a generated frame (R100). -/
inductive Producer where
  | key
  | part
deriving DecidableEq, Repr

/-- What a notice carries beside its kind, tunnel and stamp. -/
inductive NoticeBody where
  /-- GENERATED (R100) -/
  | generated (producer : Producer) (kind : FrameKind) (epoch sequence size : Nat) (cells : List Nat)
  /-- RENEWAL_DUE (R91) -/
  | renewalDue (epoch : Nat) (slot : Slot) (why : RenewalReason) (outCount : Nat) (age : Option Nat)
  /-- KEY_EXPIRED (R91) -/
  | keyExpired (epoch : Nat) (slot : Slot) (why : ExpiredReason) (outCount : Nat)
  /-- KEY_FOLLOWED (R91) -/
  | keyFollowed (epoch : Nat) (slot : Slot) (previous : Option Nat)
  /-- DIALOGUE_IN, with the fields of R6 and R113 (log 36) -/
  | dialogueIn (kind : FrameKind) (epoch sequence length : Nat) (cells : List Nat)
  /-- FAULT of a tunnel (R133) -/
  | tunnelFault (kind : TunnelFault) (latch : Latch) (state : TunnelState)
  /-- FAULT of the device (R133) -/
  | deviceFault (kind : DeviceFault) (latch : Latch)
  /-- PROOF_DONE (R149) -/
  | proofDone (purpose : Purpose) (mode : ProofMode) (result : ProofResult) (cause : Option AbortCause)
      (completed sent misses strays : Nat) (capture : Bool) (state : TunnelState) (retryCount : Nat)
deriving DecidableEq, Repr

/-- A notice; the tunnel is none for a device FAULT (R177). -/
structure Notice where
  tunnel : Option Nat
  stamp  : Clock
  body   : NoticeBody
deriving DecidableEq, Repr

/-- A field of a notice beside its header, with its value (R91, R100, R113, R133, R149). -/
inductive NoticeField where
  | producer (x : Producer)
  | frameKind (x : FrameKind)
  | epoch (n : Nat)
  | sequence (n : Nat)
  | frameSize (n : Nat)
  | cells (numbers : List Nat)
  | slot (x : Slot)
  | expiredReason (x : ExpiredReason)
  | renewalReason (x : RenewalReason)
  | outCount (n : Nat)
  | age (n : Option Nat)
  | becamePrevious (epoch : Option Nat)
  | payloadLength (n : Nat)
  | target (tunnel : Option Nat)
  | tunnelKind (x : TunnelFault)
  | deviceKind (x : DeviceFault)
  | latchStamp (x : Clock)
  | observed (n : Nat)
  | detail (n : Nat)
  | isolated (x : Bool)
  | tunnelState (x : Option TunnelState)
  | purpose (x : Purpose)
  | proofMode (x : ProofMode)
  | result (x : ProofResult)
  | abortCause (x : Option AbortCause)
  | completed (n : Nat)
  | sent (n : Nat)
  | misses (n : Nat)
  | strays (n : Nat)
  | capture (x : Bool)
  | retryCount (n : Nat)
deriving DecidableEq, Repr

/-! ### Deadlines -/

/-- A deadline that can fall due (R185). -/
inductive Due where
  | grace (t : Nat)
  | softAge (t : Nat)
  | hardAge (t : Nat)
  | interval (t : Nat)
  | silence (t : Nat)
  | keepalive (t : Nat)
  | hold (t : Nat)
  | echo
deriving DecidableEq, Repr

end Sys2Proof.Machine
end

