-- ==== Sys2Proof/Config.lean ====
section
/-! DEFINITION. What is fixed for the part (its sizes and factory values) and the values the spec leaves open. -/

namespace Sys2Proof.Config

open Sys2Proof.Machine

/-! ### Sizes -/

/-- The number of cells (R15). -/
abbrev cellCount : Nat := 2048
/-- The bytes of a cell (R15). -/
abbrev cellBytes : Nat := 256
/-- The limit of the regular pool (R16). -/
abbrev regularLimit : Nat := 1792
/-- The limit of the reserved pool (R16). -/
abbrev reservedLimit : Nat := 256
/-- The number of tunnels (R32). -/
abbrev tunnelCount : Nat := 480
/-- The number of profiles (R47). -/
abbrev profileCount : Nat := 8
/-- The number of key store entries (R51). -/
abbrev entryCount : Nat := 1024
/-- The places of the derivation queue (R61). -/
abbrev jobPlaces : Nat := 8
/-- The number of monitors (R159). -/
abbrev monitorCount : Nat := 12
/-- The records of a request queue (R171). -/
abbrev requestPlaces : Nat := 16
/-- The record places of a response queue (R171). -/
abbrev responsePlaces : Nat := 32
/-- The upper bound of the 32-bit counts (R119, R142). -/
abbrev max32 : Nat := 4294967295
/-- The upper bound of the 16-bit counts (R119, R142). -/
abbrev max16 : Nat := 65535

/-! ### Factory values (R47, R71, R106, R130, R153) -/

/-- The factory values of a profile (R47). -/
def factoryProfile : Profile where
  softFrames := 2 ^ 32
  hardFrames := 2 ^ 34
  softAge := 43200
  hardAge := 86400
  grace := 5000
  followPeer := true
  keepalive := 20
  silence := 90
  interval := 10
  authThreshold := 20
  replayThreshold := 50
  epochThreshold := 20
  persistence := 3
  report := ⟨true, true, true, true, true, true, true⟩
  action := ⟨true, false, false, false⟩
  holdTime := 30
  retryLimit := 3

/-- The factory scheduler marks (R106). -/
def factoryMarks : Marks := ⟨288, 96, 2000, 8⟩

/-- The factory pattern table (R153). -/
def factoryPatterns : List Pattern :=
  [⟨64, 0, 1⟩, ⟨1472, 165, 7⟩, ⟨0, 0, 0⟩, ⟨0, 0, 0⟩, ⟨0, 0, 0⟩, ⟨0, 0, 0⟩, ⟨0, 0, 0⟩, ⟨0, 0, 0⟩]

/-- The factory values of every item of the settings image (R181). -/
def factoryItems : Items where
  profiles := List.replicate profileCount factoryProfile
  patterns := factoryPatterns
  marks := factoryMarks
  lowMark := 64
  deviceReport := ⟨true, true, true, true⟩

/-! ### The cipher suite and key derivation: free values, of which only what R7, R8 and R54 say is known -/

/-- A cipher suite with its key derivation, as R7, R8 and R54 describe them. -/
structure Suite where
  /-- The direction key derived from a secret, a shop code and an epoch (R8). -/
  key : KeyDirection → BitVec 256 → BitVec 24 → Nat → BitVec 256
  /-- The ciphertext of a payload under a direction key and a header (R7). -/
  text : BitVec 256 → List Byte → List Byte → List Byte
  /-- The tag over a header and a ciphertext under a direction key (R7). -/
  tag : BitVec 256 → List Byte → List Byte → List Byte
  /-- What a holder of a key sealed under a tag; none where no holder of a key made a frame with the tag (R7). -/
  made : List Byte → Option Sealed
  /-- One secret yields different keys for different directions, shop codes and epochs (R8). -/
  keysDiffer : ∀ (x y : KeyDirection) (secret : BitVec 256) (shop shop' : BitVec 24) (epoch epoch' : Nat),
    epoch ≤ 255 → epoch' ≤ 255 → key x secret shop epoch = key y secret shop' epoch' →
      x = y ∧ shop = shop' ∧ epoch = epoch'
  /-- The two keys of one epoch are those of another secret for no shop code (R54). -/
  secretsDiffer : ∀ (secret secret' : BitVec 256) (shop shop' : BitVec 24) (epoch : Nat), epoch ≤ 255 →
    (∀ x, key x secret shop epoch = key x secret' shop' epoch) → secret = secret'
  /-- The ciphertext is as long as the payload (R7). -/
  textLength : ∀ key header payload, (text key header payload).length = payload.length
  /-- The tag has sixteen bytes (R1). -/
  tagLength : ∀ key header text, (tag key header text).length = 16
  /-- The tag of a frame belongs to no other key, header or payload (R7, R8). -/
  tagOwner : ∀ (key : BitVec 256) (header payload : List Byte) (m : Sealed),
    made (tag key header (text key header payload)) = some m → m = ⟨key, header, payload⟩
  /-- Some holder of a key has made a frame, so that there are frames to verify (R7). -/
  sealedFrame : ∃ (key : BitVec 256) (header payload : List Byte),
    header.length = 16 ∧ made (tag key header (text key header payload)) = some ⟨key, header, payload⟩

/-- A number of a shop code and an epoch. -/
def singleNumber (shop : BitVec 24) (epoch : Nat) : BitVec 256 := BitVec.ofNat 256 (shop.toNat * 256 + epoch)

/-- The keys of the suite below: a secret moved on by its shop code and epoch, and by more for the inbound key. -/
def singleKey (x : KeyDirection) (secret : BitVec 256) (shop : BitVec 24) (epoch : Nat) : BitVec 256 :=
  match x with
  | .outbound => secret + singleNumber shop epoch
  | .inbound => secret + singleNumber shop epoch + (singleNumber shop epoch + 8589934592)

theorem toNat_singleNumber (shop : BitVec 24) (epoch : Nat) (h : epoch ≤ 255) :
    (singleNumber shop epoch).toNat = shop.toNat * 256 + epoch := by
  have := shop.isLt
  rw [singleNumber, BitVec.toNat_ofNat, Nat.mod_eq_of_lt (Nat.lt_of_lt_of_le (m := 2 ^ 32) (by omega) (by decide))]

theorem singleKey_differs (x y : KeyDirection) (secret : BitVec 256) (shop shop' : BitVec 24) (epoch epoch' : Nat)
    (h : epoch ≤ 255) (h' : epoch' ≤ 255) (e : singleKey x secret shop epoch = singleKey y secret shop' epoch') :
    x = y ∧ shop = shop' ∧ epoch = epoch' := by
  have hs := shop.isLt
  have hs' := shop'.isLt
  have n := toNat_singleNumber shop epoch h
  have n' := toNat_singleNumber shop' epoch' h'
  have inbound (a : BitVec 256) (k : Nat) (ha : a.toNat = k) (hk : k < 2 ^ 32) :
      (a + (a + 8589934592)).toNat = 2 * k + 8589934592 := by
    rw [BitVec.toNat_add, BitVec.toNat_add, ha, show (8589934592 : BitVec 256).toNat = 8589934592 from rfl,
      Nat.mod_eq_of_lt (a := k + 8589934592) (by omega), Nat.mod_eq_of_lt (by omega)]
    omega
  suffices h : x = y ∧ shop.toNat = shop'.toNat ∧ epoch = epoch' from ⟨h.1, BitVec.eq_of_toNat_eq h.2.1, h.2.2⟩
  cases x <;> cases y <;> simp only [singleKey, BitVec.add_assoc, BitVec.add_right_inj] at e <;>
    have e := congrArg BitVec.toNat e
  · rw [n, n'] at e
    exact ⟨rfl, by omega, by omega⟩
  · rw [n, inbound _ _ n' (by omega)] at e
    omega
  · rw [n', inbound _ _ n (by omega)] at e
    omega
  · rw [inbound _ _ n (by omega), inbound _ _ n' (by omega)] at e
    exact ⟨rfl, by omega, by omega⟩

theorem singleKey_secret (secret secret' : BitVec 256) (shop shop' : BitVec 24) (epoch : Nat) (_ : epoch ≤ 255)
    (e : ∀ x, singleKey x secret shop epoch = singleKey x secret' shop' epoch) : secret = secret' := by
  have o : secret + singleNumber shop epoch = secret' + singleNumber shop' epoch := e .outbound
  have i : secret + singleNumber shop epoch + (singleNumber shop epoch + 8589934592)
      = secret' + singleNumber shop' epoch + (singleNumber shop' epoch + 8589934592) := e .inbound
  rw [o, BitVec.add_right_inj, BitVec.add_left_inj] at i
  rwa [i, BitVec.add_left_inj] at o

/-- A suite under which one frame has been made, of no payload under key 0: it shows that there are suites. -/
def Suite.single : Suite where
  key := singleKey
  text _ _ payload := payload
  tag key header text := List.replicate 16 (if key = 0 ∧ header = List.replicate 16 0 ∧ text = [] then 1 else 0)
  made tag := if tag = List.replicate 16 1 then some ⟨0, List.replicate 16 0, []⟩ else none
  keysDiffer := singleKey_differs
  secretsDiffer := singleKey_secret
  textLength _ _ _ := rfl
  tagLength _ _ _ := by simp
  tagOwner key header payload m h := by
    by_cases c : key = 0 ∧ header = List.replicate 16 0 ∧ payload = []
    · obtain ⟨rfl, rfl, rfl⟩ := c
      simpa using h.symm
    · rw [if_neg c, if_neg (by decide)] at h
      cases h
  sealedFrame := ⟨0, List.replicate 16 0, [], rfl, rfl⟩

/-- A suite of which nothing is known but that it is one (R7, R8, R54; logs 4 and 5). -/
opaque suiteOf [Inhabited Suite] : Suite

/-- The cipher suite and key derivation of the part (R7, R8; logs 4 and 5). -/
def suite : Suite := @suiteOf ⟨Suite.single⟩

/-! ### Free values: constants without a body, of which nothing can be proved -/

/-- How many records the part makes of a response body that may take more than one (R175; log 2). -/
opaque recordCount : Body → Nat

/-- The byte at a position of a record of a response that holds body bytes: which record, which position (R175,
R174; log 2). -/
opaque bodyByte : Body → Nat → Nat → Byte

/-- The bytes that a field takes in a notice record (R177; log 3). -/
opaque fieldBytes : NoticeField → List Byte

/-- The byte at a position of a notice record that no field of the notice takes (R177; log 3). -/
opaque noticeByte : Notice → Nat → Byte

/-- The place of a deadline in the order of those that fall due at one clock value, at the n-th draw (R185; log 7). -/
opaque expiryRank : Nat → Due → Nat

/-- The frames sent of a proof after a frame sent at the upper bound, at the n-th draw (R142; log 19). -/
opaque framesSentPastBound : Nat → BitVec 32

end Sys2Proof.Config
end

