-- ==== Sys2Proof/Machine/State.lean ====
section
/-! DEFINITION. The state of the part as plain data, the reasons a step can stop, and the state after reset. -/

namespace Sys2Proof.Machine

/-- The state of one port controller (R171).  `bus` is the model's own: the word the last read of this port's window
returned (log 12). -/
structure PortState where
  buffer      : List Byte
  requests    : List (List Byte)
  responses   : List ResponseRecord
  reserved    : Nat
  notices     : List Notice
  ready       : Bool
  restarted   : Bool
  overrun     : Bool
  accessFault : Bool
  bus         : BusWord
deriving DecidableEq, Repr

/-- Everything the part holds: all of State but the queue of commands.  `buildDue` and `draws` are the model's own:
the event under way has freed something that a waiting proof asks for (R144; log 15), and the counter that free
values are drawn with (logs 7 and 19). -/
structure Device where
  clock        : Clock
  store        : CellStore
  tunnels      : SMap Tunnel
  profiles     : List Profile
  keys         : KeyUnit
  engine       : Engine
  faults       : DeviceLatches
  deviceReport : DeviceSet
  proofs       : ProofUnit
  bank         : Bank
  traffic      : PortState
  key          : PortState
  operations   : PortState
  image        : Image
  loading      : Bool
  saving       : Option Save
  buildDue     : Bool
  draws        : Nat
deriving DecidableEq, Repr

/-- The state of the block: what the part holds, and the commands that wait, first in, first out. -/
structure State where
  dev     : Device
  pending : List Instr
deriving DecidableEq, Repr

/-- The reasons for which a step faults. -/
inductive Fault where
  /-- Raised by an access to a port window whose offset is not that of an aligned four-byte word.  R171: "Every
  access is one aligned four-byte word", so no such access exists.  Safe. -/
  | unalignedAccess
  /-- Raised by an access to a port window at an offset above FFFFFh, where the window ends (R171).  Safe. -/
  | outsideWindow
deriving DecidableEq, Repr

/-- The reasons for which a step is refused. -/
inductive Refusal where
  /-- Raised by the dispatch of a command that has no meaning yet.  No arm raises it now.  Safe. -/
  | notModelled (mnemonic : String)
deriving DecidableEq, Repr

/-! ### The state after reset -/

/-- A port after power-on: everything empty and every latch clear, READY clear until the settings image has loaded
(R171). -/
def PortState.initial : PortState where
  buffer := List.replicate 32 0
  requests := []
  responses := []
  reserved := 0
  notices := []
  ready := false
  restarted := false
  overrun := false
  accessFault := false
  bus := 0

/-- The condition record at power-on (R120). -/
def Condition.initial : Condition where
  counts := ⟨0, 0, 0⟩
  runs := ⟨0, 0, 0⟩
  totals := ⟨0, 0, 0, 0, 0, 0, 0⟩
  keepalivesSent := 0
  keepalivesSkipped := 0
  intervalStart := none
  intervalDeadline := none
  silenceDeadline := none
  keepaliveDeadline := none
  outstanding := false
  latches := ⟨none, none, none, none, none, none, none⟩

/-- The tunnel record at power-on (R33). -/
def Tunnel.initial : Tunnel where
  state := .empty
  shop := none
  profile := none
  outCauses := ⟨false, false, false⟩
  inOps := false
  retryCount := 0
  holdDeadline := none
  frameCount := 0
  inDerivation := false
  underProof := false
  closeTag := none
  condition := Condition.initial
  next := none
  current := none
  previous := none

/-- A monitor at power-on (R161). -/
def Monitor.initial : Monitor where
  counter := 0
  overflow := false
  source := .none
  filter := .all
  mode := .count
  compare := .atOrAbove
  threshold := 0
  freeze := false
  held := none

/-- The bank at power-on (R161). -/
def Bank.initial : Bank where
  monitors := List.replicate Config.monitorCount Monitor.initial
  state := .counting
  elapsed := 0
  freezeDue := false

/-- The part in the event of a power-on reset, with the settings image its non-volatile store holds: every block at
its power-on value, and a load under way (R15, R33, R53, R94, R95, R103, R105, R120, R130, R142, R161, R171, R182,
R185).  The settings in use until that load completes are the factory values (log 10). -/
def Device.powerOn (image : Image) : Device where
  clock := 0
  store := ⟨[], []⟩
  tunnels := []
  profiles := Config.factoryItems.profiles
  keys := ⟨[], [], Config.factoryItems.lowMark⟩
  engine := ⟨[], [], [], none, .base .normal, .settle1, Config.factoryItems.marks⟩
  faults := ⟨none, none, none, none⟩
  deviceReport := Config.factoryItems.deviceReport
  proofs := ⟨none, 0, none, none, Config.factoryItems.patterns, []⟩
  bank := Bank.initial
  traffic := PortState.initial
  key := PortState.initial
  operations := PortState.initial
  image := image
  loading := true
  saving := none
  buildDue := false
  draws := 0

/-- The image of a part that has never saved: the factory items with a matching check (DESIGN CHOICE, log 9). -/
def factoryImage : Image := ⟨Config.factoryItems, true⟩

/-- The machine right after a power-on reset, with no command waiting. -/
def State.reset : State := ⟨Device.powerOn factoryImage, []⟩

end Sys2Proof.Machine
end

