-- ==== Sys2Proof/Machine/Ops.lean ====
section
/-! DEFINITION. Named operations over the state: data by key, memory, time, tunnels, ports and responses. -/

namespace Sys2Proof.Machine

/-! ### Data by key, in canonical form -/

/-- The value at a number: the listed one, or `d` for an unlisted number. -/
def SMap.get {α : Type} (d : α) : SMap α → Nat → α
  | [], _ => d
  | (a, x) :: m, k => if a = k then x else SMap.get d m k

/-- The list with a number's value set, kept in rising order. -/
def SMap.insert {α : Type} : SMap α → Nat → α → SMap α
  | [], k, v => [(k, v)]
  | (a, x) :: m, k, v =>
    if k < a then (k, v) :: (a, x) :: m
    else if k = a then (k, v) :: m
    else (a, x) :: SMap.insert m k v

/-- The list without a number. -/
def SMap.erase {α : Type} (m : SMap α) (k : Nat) : SMap α := m.filter fun e => e.1 != k

/-- The list with a number's value set; the value of an unlisted number is not listed. -/
def SMap.put {α : Type} [DecidableEq α] (d : α) (m : SMap α) (k : Nat) (v : α) : SMap α :=
  if v = d then m.erase k else m.insert k v

/-- The canonical form: numbers strictly rising, and no entry equal to the value of an unlisted number. -/
def SMap.wf {α : Type} [DecidableEq α] (d : α) : SMap α → Bool
  | [] => true
  | (a, x) :: m => (x != d) && m.all (fun e => decide (a < e.1)) && SMap.wf d m

/-! ### Memory -/

/-- What an unlisted address of the frame store reads as (R15). -/
def Memory.unlisted : Byte := 0

/-- The byte at an address. -/
def Memory.read (m : Memory) (a : Nat) : Byte := SMap.get Memory.unlisted m a

/-- The memory with a byte written. -/
def Memory.write (m : Memory) (a : Nat) (b : Byte) : Memory := SMap.put Memory.unlisted m a b

/-- The memory with bytes written from an address on. -/
def Memory.writeFrom (m : Memory) (a : Nat) : List Byte → Memory
  | [] => m
  | b :: bs => Memory.writeFrom (m.write a b) (a + 1) bs

/-- The canonical form of memory. -/
def Memory.wf (m : Memory) : Bool := SMap.wf Memory.unlisted m

/-! ### Numbers and bytes, most significant byte first (00_scope 1.5) -/

/-- The number that bytes spell, most significant byte first. -/
def beNat (bs : List Byte) : Nat := bs.foldl (fun n b => n * 256 + b.toNat) 0

/-- The bytes of a number in a field of `w` bytes, most significant byte first. -/
def beBytes : Nat → Nat → List Byte
  | 0, _ => []
  | w + 1, n => BitVec.ofNat 8 (n / 256 ^ w) :: beBytes w n

/-- The bytes at positions `off .. off + w - 1`. -/
def slice (bs : List Byte) (off w : Nat) : List Byte := (bs.drop off).take w

/-- The bus word that four bytes make. -/
def wordOf (bs : List Byte) : BusWord := BitVec.ofNat 32 (beNat bs)

/-- The least whole number not below size / 256: the cells a frame of this size needs (R5). -/
def cellsFor (size : Nat) : Nat := (size + 255) / 256

/-- A count raised by one, stopping at its upper bound (R119, R142). -/
def bump (bound n : Nat) : Nat := min (n + 1) bound

/-! ### Time -/

/-- Seconds and milliseconds in microseconds. -/
def seconds (n : Nat) : Nat := n * 1000000
/-- Milliseconds in microseconds. -/
def millis (n : Nat) : Nat := n * 1000

/-- Now plus a number of microseconds, modulo 2^48 (R185). -/
def Device.after (d : Device) (us : Nat) : Clock := d.clock + BitVec.ofNat 48 us

/-- Now less a clock value, in microseconds (R84). -/
def Device.since (d : Device) (at_ : Clock) : Nat := (d.clock - at_).toNat

/-- A deadline that is present and has come: the clock has been brought to its value (R185). -/
def Device.due (d : Device) (deadline : Option Clock) : Bool := deadline == some d.clock

/-! ### Tunnels and profiles -/

/-- The record of a tunnel. -/
def Device.tunnel (d : Device) (t : Nat) : Tunnel := SMap.get Tunnel.initial d.tunnels t

/-- The part with a tunnel's record set. -/
def Device.setTunnel (d : Device) (t : Nat) (r : Tunnel) : Device :=
  { d with tunnels := SMap.put Tunnel.initial d.tunnels t r }

/-- The part with a tunnel's record changed. -/
def Device.modTunnel (d : Device) (t : Nat) (f : Tunnel → Tunnel) : Device := d.setTunnel t (f (d.tunnel t))

/-- Every tunnel's record changed. -/
def Device.modTunnels (d : Device) (f : Tunnel → Tunnel) : Device :=
  (List.range Config.tunnelCount).foldl (fun d t => d.modTunnel t f) d

/-- The profile in use under a number. -/
def Device.profileAt (d : Device) (n : Nat) : Profile := d.profiles.getD n Config.factoryProfile

/-- The profile that a tunnel names. -/
def Device.profileOf (d : Device) (t : Nat) : Profile := d.profileAt ((d.tunnel t).profile.getD 0)

/-- The change of a tunnel's condition record. -/
def Tunnel.modCondition (r : Tunnel) (f : Condition → Condition) : Tunnel := { r with condition := f r.condition }

/-! ### Ports -/

/-- The state of a port. -/
def Device.port (d : Device) : Port → PortState
  | .traffic => d.traffic
  | .key => d.key
  | .operations => d.operations

/-- The part with a port's state set. -/
def Device.setPort (d : Device) (p : Port) (x : PortState) : Device :=
  match p with
  | .traffic => { d with traffic := x }
  | .key => { d with key := x }
  | .operations => { d with operations := x }

/-- The part with a port's state changed. -/
def Device.modPort (d : Device) (p : Port) (f : PortState → PortState) : Device := d.setPort p (f (d.port p))

/-- The master of a port that can own cells (R15). -/
def ownerOf : Port → Option Owner
  | .traffic => some .traffic
  | .key => some .key
  | .operations => none

/-- A notice placed at the tail of a port's notice queue (R177). -/
def Device.pushNotice (d : Device) (p : Port) (n : Notice) : Device :=
  d.modPort p fun x => { x with notices := x.notices ++ [n] }

/-! ### Responses (R174, R175) -/

/-- The records of a response (R175). -/
def responseRecords (r : Response) (count : Nat) : List ResponseRecord :=
  (List.range count).map fun i => ⟨r, i, count⟩

/-- The number of records the part makes of a response that holds `places` places: one where it holds one, otherwise
the open number of its body's layout, at least one and at most the places (R175; log 2). -/
def recordsOf (places : Nat) (body : Body) : Nat :=
  if places ≤ 1 then 1 else max 1 (min places (Config.recordCount body))

/-- A response of `count` records queued in the places reserved for it; the places it does not use are released
(R174, R175). -/
def Device.queueResponse (d : Device) (p : Port) (places : Nat) (r : Response) (count : Nat) : Device :=
  d.modPort p fun x =>
    { x with reserved := x.reserved - places, responses := x.responses ++ responseRecords r count }

/-- A deferred response queued in its one place (R174). -/
def Device.answerDeferred (d : Device) (p : Port) (tag : BitVec 16) (code : Nat) (status : Status) (result : Result)
    (body : Body) : Device :=
  d.queueResponse p 1 ⟨tag, code, status, result, body⟩ 1

end Sys2Proof.Machine
end

