-- ==== Sys2Proof/Machine/Cells.lean ====
section
/-! DEFINITION. The cell store: states, owners, pool charges, grants, wiping and the laying of frames (R15..R21, R6). -/

namespace Sys2Proof.Machine

/-- A FREE cell: no owner, charged to no pool (R15). -/
def Cell.free : Cell := ⟨.free, none⟩

/-- A cell's state and charge. -/
def CellStore.cell (c : CellStore) (n : Nat) : Cell := SMap.get Cell.free c.cells n

/-- The store with a cell's state and charge set. -/
def CellStore.setCell (c : CellStore) (n : Nat) (x : Cell) : CellStore :=
  { c with cells := SMap.put Cell.free c.cells n x }

/-- The number of cells charged to a pool (R16). -/
def CellStore.charged (c : CellStore) (p : Pool) : Nat := c.cells.countP fun e => decide (e.2.charge = some p)

/-- The limit of a pool (R16). -/
def Pool.limit : Pool → Nat
  | .regular => Config.regularLimit
  | .reserved => Config.reservedLimit

/-- The pool can grant `n` more cells (R16, R17). -/
def CellStore.hasRoom (c : CellStore) (p : Pool) (n : Nat) : Bool := decide (c.charged p + n ≤ p.limit)

/-- The number of FREE cells: those of the 2048 that are in no other state (R15, R31). -/
def CellStore.freeCount (c : CellStore) : Nat :=
  Config.cellCount - c.cells.countP fun e => decide (e.2.state ≠ .free)

/-- The `n` FREE cells with the lowest numbers, ascending (R17). -/
def CellStore.lowestFree (c : CellStore) (n : Nat) : List Nat :=
  ((List.range Config.cellCount).filter fun k => decide ((c.cell k).state = .free)).take n

/-- Cells that leave FREE for a state, charged to a pool (R16). -/
def CellStore.take (c : CellStore) (p : Pool) (s : CellState) : List Nat → CellStore
  | [] => c
  | n :: ns => CellStore.take (c.setCell n ⟨s, some p⟩) p s ns

/-- A cell that is not FREE passes to another state and keeps its charge; a cell leaves FREE by a grant only
(R16). -/
def CellStore.passOne (c : CellStore) (n : Nat) (s : CellState) : CellStore :=
  if (c.cell n).state = .free then c else c.setCell n { c.cell n with state := s }

/-- Cells that pass to another state. -/
def CellStore.pass (c : CellStore) (s : CellState) : List Nat → CellStore
  | [] => c
  | n :: ns => CellStore.pass (c.passOne n s) s ns

/-- A cell wiped to zeros (R21). -/
def CellStore.wipe (c : CellStore) (n : Nat) : CellStore :=
  { c with bytes := c.bytes.filter fun e => e.1 / Config.cellBytes != n }

/-- Cells wiped to zeros. -/
def CellStore.wipeAll (c : CellStore) : List Nat → CellStore
  | [] => c
  | n :: ns => CellStore.wipeAll (c.wipe n) ns

/-- Cells made FREE, each wiped in the same event; the charge of whichever pool each was charged to falls (R16,
R21). -/
def CellStore.release (c : CellStore) : List Nat → CellStore
  | [] => c
  | n :: ns => CellStore.release ((c.setCell n Cell.free).wipe n) ns

/-- The address of byte `j` of the sequence that cells form: cell j / 256 of the list, offset j mod 256 (R6). -/
def cellAddress (cells : List Nat) (j : Nat) : Nat :=
  cells.getD (j / Config.cellBytes) 0 * Config.cellBytes + j % Config.cellBytes

/-- The bytes at positions `from .. from + len - 1` of the sequence that cells form (R6). -/
def CellStore.readSeq (c : CellStore) (cells : List Nat) (start len : Nat) : List Byte :=
  (List.range len).map fun j => c.bytes.read (cellAddress cells (start + j))

/-- Bytes written from a position of the sequence that cells form on (R6). -/
def CellStore.writeSeq (c : CellStore) (cells : List Nat) (start : Nat) : List Byte → CellStore
  | [] => c
  | b :: bs =>
    CellStore.writeSeq { c with bytes := c.bytes.write (cellAddress cells start) b } cells (start + 1) bs

/-- Bytes laid in cells from position 0, every later byte of every listed cell zero (R6). -/
def CellStore.lay (c : CellStore) (cells : List Nat) (bytes : List Byte) : CellStore :=
  (c.wipeAll cells).writeSeq cells 0 bytes

/-- A port's master may touch a cell: it is CLAIMED or DONE and owned by the port (R15, R22). -/
def CellStore.touchable (c : CellStore) (p : Port) (n : Nat) : Bool :=
  match ownerOf p with
  | some o => decide ((c.cell n).state = .claimed o) || decide ((c.cell n).state = .done o)
  | none => false

/-- The cells of a port that are CLAIMED or DONE and owned by it (R29). -/
def CellStore.ownedBy (c : CellStore) (o : Owner) : List Nat :=
  (c.cells.filter fun e => decide (e.2.state = .claimed o ∨ e.2.state = .done o)).map (·.1)

/-! ### The same on the part -/

/-- Cells made FREE and wiped.  A reserved-pool cell made FREE lets a waiting proof attempt its frame (R144). -/
def Device.freeCells (d : Device) (cells : List Nat) : Device :=
  { d with
    store := d.store.release cells
    buildDue := d.buildDue || cells.any fun n => decide ((d.store.cell n).charge = some .reserved) }

/-- Cells passed to another state. -/
def Device.passCells (d : Device) (cells : List Nat) (s : CellState) : Device :=
  { d with store := d.store.pass s cells }

end Sys2Proof.Machine
end

