-- ==== Sys2Proof/Machine/Monitor.lean ====
section
/-! DEFINITION. The monitor bank: filters, levels, the advance of counters, edges and durations (R159..R166). -/

namespace Sys2Proof.Machine

/-- The number of key store entries in use (R51). -/
def KeyUnit.inUse (k : KeyUnit) : Nat := k.entries.countP fun e => decide (e.2 ≠ .free)

/-- The free count of the key store (R51). -/
def KeyUnit.freeCount (k : KeyUnit) : Nat := Config.entryCount - k.inUse

/-- A filter passes an event that carries this tunnel, or none (R162). -/
def Device.passes (d : Device) (f : Filter) (carried : Option Nat) : Bool :=
  match f, carried with
  | .all, _ => true
  | .one k, some t => decide (k = t)
  | .one _, none => false
  | .profile n, some t => decide ((d.tunnel t).state ≠ .empty ∧ (d.tunnel t).profile = some n)
  | .profile _, none => false

/-- The quantity of a level source (10.2). -/
def Device.level (d : Device) : LevelSource → Nat
  | .settleOccupancy => d.engine.settle.length
  | .bulkOccupancy => d.engine.bulk.length
  | .freeCells => d.store.freeCount
  | .freeKeyEntries => d.keys.freeCount
  | .engineBusy => if d.engine.inWork.isSome then 1 else 0

/-- The largest value of a level source (10.2). -/
def LevelSource.largest : LevelSource → Nat
  | .settleOccupancy => 384
  | .bulkOccupancy => 576
  | .freeCells => 2048
  | .freeKeyEntries => 1024
  | .engineBusy => 1

/-- A level stands on the compared side of a threshold (R163). -/
def Compare.onSide : Compare → Nat → Nat → Bool
  | .atOrAbove, level, threshold => decide (threshold ≤ level)
  | .below, level, threshold => decide (level < threshold)

/-- A monitor's condition holds on its level as it stands (R163). -/
def Device.conditionHolds (d : Device) (m : Monitor) : Bool :=
  match m.source with
  | .level l => m.compare.onSide (d.level l) m.threshold
  | .event _ => false
  | .none => false

/-- The counter stands at 2^40 − 1, so that its next advance overflows (R166). -/
def Monitor.atTop (m : Monitor) : Bool := decide (m.counter = BitVec.allOnes 40)

/-- One advance of a counter: from 2^40 − 1 it becomes 0 and its overflow latch is set (R166). -/
def Monitor.advance (m : Monitor) : Monitor :=
  { m with counter := m.counter + 1, overflow := m.overflow || m.atTop }

/-- While the bank is COUNTING, every monitor that `hit` names advances by one (R160, R162).  A wrap with freeze on
overflow makes a freeze due at the end of the event (R166). -/
def Bank.advanceWhere (b : Bank) (hit : Monitor → Bool) : Bank :=
  match b.state with
  | .counting =>
    { b with
      monitors := b.monitors.map fun m => if hit m then m.advance else m
      freezeDue := b.freezeDue || b.monitors.any fun m => hit m && m.atTop && m.freeze }
  | .frozen _ => b

/-- An event given to the bank, with the tunnel it carries (R162). -/
def Device.give (d : Device) (e : EventSource) (carried : Option Nat) : Device :=
  { d with bank := d.bank.advanceWhere fun m => decide (m.source = .event e) && d.passes m.filter carried }

/-- The EDGE monitors are judged on the levels as the event leaves them: an entry counts while the bank is COUNTING,
and condition held is brought up to date in every case (R164). -/
def Device.judgeEdges (d : Device) : Device :=
  let b := d.bank.advanceWhere fun m =>
    decide (m.mode = .edge) && decide (m.held = some false) && d.conditionHolds m
  { d with bank := { b with
      monitors := b.monitors.map fun m =>
        if m.mode = .edge then { m with held := some (d.conditionHolds m) } else m } }

/-- The bank's part of a clock advance: the elapsed counter rises and the DURATION monitors whose condition holds
advance, while the bank is COUNTING (R160, R163). -/
def Device.countMicrosecond (d : Device) : Device :=
  match d.bank.state with
  | .counting =>
    let b := d.bank.advanceWhere fun m => decide (m.mode = .duration) && d.conditionHolds m
    { d with bank := { b with elapsed := b.elapsed + 1 } }
  | .frozen _ => d

end Sys2Proof.Machine
end

