-- ==== Sys2Proof/Machine/Flags.lean ====
section
/-! DEFINITION. Flags and sets: fault latches and report sets by kind, hold causes and service levels, the condition
record's counts, and the bits and bytes of the status word and of record headers (R43, R44, R47, R119, R176). -/

namespace Sys2Proof.Machine

/-! ### Fault kinds -/

/-- The device kinds in scan order (R132). -/
def DeviceFault.all : List DeviceFault := [.keystoreLow, .reserveExhausted, .monitorOverflow, .settingsDefaulted]

/-- The tunnel kinds in scan order (R132). -/
def TunnelFault.all : List TunnelFault :=
  [.authStorm, .replayStorm, .epochDrift, .shopSilent, .keyExpired, .proofFailed, .tunnelFailed]

/-- The latch of a kind. -/
def TunnelLatches.get (l : TunnelLatches) : TunnelFault → Option Latch
  | .authStorm => l.authStorm
  | .replayStorm => l.replayStorm
  | .epochDrift => l.epochDrift
  | .shopSilent => l.shopSilent
  | .keyExpired => l.keyExpired
  | .proofFailed => l.proofFailed
  | .tunnelFailed => l.tunnelFailed

/-- The latches with that of a kind set or cleared. -/
def TunnelLatches.set (l : TunnelLatches) (k : TunnelFault) (x : Option Latch) : TunnelLatches :=
  match k with
  | .authStorm => { l with authStorm := x }
  | .replayStorm => { l with replayStorm := x }
  | .epochDrift => { l with epochDrift := x }
  | .shopSilent => { l with shopSilent := x }
  | .keyExpired => { l with keyExpired := x }
  | .proofFailed => { l with proofFailed := x }
  | .tunnelFailed => { l with tunnelFailed := x }

/-- Every latch of a tunnel changed in the same way. -/
def TunnelLatches.mapAll (l : TunnelLatches) (f : Latch → Latch) : TunnelLatches :=
  ⟨l.authStorm.map f, l.replayStorm.map f, l.epochDrift.map f, l.shopSilent.map f, l.keyExpired.map f,
    l.proofFailed.map f, l.tunnelFailed.map f⟩

/-- The latch of a device kind. -/
def DeviceLatches.get (l : DeviceLatches) : DeviceFault → Option Latch
  | .keystoreLow => l.keystoreLow
  | .reserveExhausted => l.reserveExhausted
  | .monitorOverflow => l.monitorOverflow
  | .settingsDefaulted => l.settingsDefaulted

/-- The device latches with that of a kind set or cleared. -/
def DeviceLatches.set (l : DeviceLatches) (k : DeviceFault) (x : Option Latch) : DeviceLatches :=
  match k with
  | .keystoreLow => { l with keystoreLow := x }
  | .reserveExhausted => { l with reserveExhausted := x }
  | .monitorOverflow => { l with monitorOverflow := x }
  | .settingsDefaulted => { l with settingsDefaulted := x }

/-- Every device latch changed in the same way. -/
def DeviceLatches.mapAll (l : DeviceLatches) (f : Latch → Latch) : DeviceLatches :=
  ⟨l.keystoreLow.map f, l.reserveExhausted.map f, l.monitorOverflow.map f, l.settingsDefaulted.map f⟩

/-- A kind is in a report set. -/
def ReportSet.has (r : ReportSet) : TunnelFault → Bool
  | .authStorm => r.authStorm
  | .replayStorm => r.replayStorm
  | .epochDrift => r.epochDrift
  | .shopSilent => r.shopSilent
  | .keyExpired => r.keyExpired
  | .proofFailed => r.proofFailed
  | .tunnelFailed => r.tunnelFailed

/-- A kind is in an action set; three kinds never are (R47). -/
def ActionSet.has (a : ActionSet) : TunnelFault → Bool
  | .authStorm => a.authStorm
  | .replayStorm => a.replayStorm
  | .epochDrift => a.epochDrift
  | .shopSilent => a.shopSilent
  | .keyExpired | .proofFailed | .tunnelFailed => false

/-- A kind is in the device report set. -/
def DeviceSet.has (s : DeviceSet) : DeviceFault → Bool
  | .keystoreLow => s.keystoreLow
  | .reserveExhausted => s.reserveExhausted
  | .monitorOverflow => s.monitorOverflow
  | .settingsDefaulted => s.settingsDefaulted

/-- A latch that waits for a notice place (R131). -/
def Latch.waits (l : Latch) : Bool := decide (l.report = .unreported)

/-- A latch that was reported, made unreported again at an operations port reset (R134). -/
def Latch.unreport (l : Latch) : Latch :=
  match l.report with
  | .reported => { l with report := .unreported }
  | .unreported | .silent => l

/-! ### Hold causes and service levels -/

/-- No outbound cause stands (R44). -/
def OutCauses.isEmpty (c : OutCauses) : Bool := !c.ops && !c.keySpent && !c.keyExpired

/-- The two outbound causes the key unit sets (R43). -/
inductive KeyCause where
  | spent
  | expired
deriving DecidableEq, Repr

/-- A key cause stands. -/
def OutCauses.has (c : OutCauses) : KeyCause → Bool
  | .spent => c.keySpent
  | .expired => c.keyExpired

/-- The causes with a key cause set. -/
def OutCauses.add (c : OutCauses) : KeyCause → OutCauses
  | .spent => { c with keySpent := true }
  | .expired => { c with keyExpired := true }

/-- The service level: derived from the two cause sets of an IN_SERVICE tunnel, STOPPED in any other state (R44). -/
def Tunnel.level (r : Tunnel) : ServiceLevel :=
  match r.state with
  | .inService =>
    match r.outCauses.isEmpty, r.inOps with
    | true, false => .full
    | true, true => .sendOnly
    | false, false => .receiveOnly
    | false, true => .stopped
  | .empty | .provisioned | .isolated | .failed | .closing => .stopped

/-! ### Counts of a condition record -/

/-- An outcome counted in the interval counts, where its kind has one, and in the totals (R121). -/
def Condition.count (c : Condition) : Counted → Condition
  | .authFail =>
    { c with counts := { c.counts with authFail := bump Config.max16 c.counts.authFail }
             totals := { c.totals with authFail := bump Config.max32 c.totals.authFail } }
  | .replay =>
    { c with counts := { c.counts with replay := bump Config.max16 c.counts.replay }
             totals := { c.totals with replay := bump Config.max32 c.totals.replay } }
  | .epochMiss =>
    { c with counts := { c.counts with epochMiss := bump Config.max16 c.counts.epochMiss }
             totals := { c.totals with epochMiss := bump Config.max32 c.totals.epochMiss } }
  | .malformed => { c with totals := { c.totals with malformed := bump Config.max32 c.totals.malformed } }
  | .notInService =>
    { c with totals := { c.totals with notInService := bump Config.max32 c.totals.notInService } }
  | .inboundHeld => { c with totals := { c.totals with inboundHeld := bump Config.max32 c.totals.inboundHeld } }
  | .keyUnusable => { c with totals := { c.totals with keyUnusable := bump Config.max32 c.totals.keyUnusable } }

/-- The run of a kind after an interval with this count: 0 with the threshold off or above the count, otherwise one
more, stopping at 8 (R122). -/
def runAfter (threshold count run : Nat) : Nat :=
  if threshold = 0 then 0 else if threshold ≤ count then bump 8 run else 0

/-! ### Positions and bits of the record formats -/

/-- The statuses in the order of R175. -/
def Status.code : Status → Nat
  | .done => 0
  | .wrongPort => 1
  | .badRequest => 2
  | .noTunnel => 3
  | .notOwner => 4
  | .tooFewCells => 5
  | .queueFull => 6
  | .noticeFull => 7
  | .noCells => 8
  | .wrongState => 9
  | .shopInUse => 10
  | .slotBusy => 11
  | .epochConflict => 12
  | .keystoreFull => 13
  | .deriveFull => 14
  | .noSuchEpoch => 15
  | .proofBusy => 16
  | .busy => 17
  | .tunnelClosed => 18

/-- The outcomes in the order of R175. -/
def Result.code : Result → Nat
  | .none => 0
  | .sent => 1
  | .handed => 2
  | .discarded => 3
  | .accepted => 4
  | .consumed => 5
  | .diverted => 6
  | .dialogueDropped => 7
  | .tunnelClosed => 8
  | .notInService => 9
  | .outboundHeld => 10
  | .inboundHeld => 11
  | .keyUnusable => 12
  | .malformed => 13
  | .epochMiss => 14
  | .authFail => 15
  | .replay => 16
  | .promoted => 17
  | .alreadyCurrent => 18
  | .retired => 19
  | .retirePending => 20
  | .cleared => 21
  | .notSet => 22
  | .frozen => 23
  | .alreadyFrozen => 24
  | .counting => 25
  | .alreadyCounting => 26

/-- The kind byte of a notice (R177). -/
def NoticeBody.kindByte : NoticeBody → Nat
  | .generated .. => 1
  | .renewalDue .. => 2
  | .keyExpired .. => 3
  | .keyFollowed .. => 4
  | .dialogueIn .. => 5
  | .tunnelFault .. => 6
  | .deviceFault .. => 6
  | .proofDone .. => 7

/-- The fields of a notice beside its header, in the order in which the owning rule lists them (R177): those of R100,
R91, R6 with R113 (log 36), R133 and R149. -/
def Notice.fields (n : Notice) : List NoticeField :=
  match n.body with
  | .generated by_ kind epoch sequence size cells =>
    [.producer by_, .frameKind kind, .epoch epoch, .sequence sequence, .frameSize size, .cells cells]
  | .renewalDue epoch slot why count age =>
    [.epoch epoch, .slot slot, .renewalReason why, .outCount count, .age age]
  | .keyExpired epoch slot why count => [.epoch epoch, .slot slot, .expiredReason why, .outCount count]
  | .keyFollowed epoch slot previous => [.epoch epoch, .slot slot, .becamePrevious previous]
  | .dialogueIn kind epoch sequence length cells =>
    [.frameKind kind, .epoch epoch, .sequence sequence, .payloadLength length, .cells cells]
  | .tunnelFault kind l state =>
    [.target n.tunnel, .tunnelKind kind, .latchStamp l.stamp, .observed l.observed, .detail l.detail,
      .isolated l.isolated, .tunnelState (some state)]
  | .deviceFault kind l =>
    [.target none, .deviceKind kind, .latchStamp l.stamp, .observed l.observed, .detail l.detail,
      .isolated l.isolated, .tunnelState none]
  | .proofDone purpose mode result cause completed sent misses strays capture state retries =>
    [.purpose purpose, .proofMode mode, .result result, .abortCause cause, .completed completed, .sent sent,
      .misses misses, .strays strays, .capture capture, .tunnelState (some state), .retryCount retries]

/-- The bytes of a notice record: kind, tunnel (FFFFh for the device), stamp, then the fields in their order, each in
the bytes that it takes (R177; log 3). -/
def Notice.bytes (n : Notice) : List Byte :=
  let fields := n.fields.flatMap Config.fieldBytes
  beBytes 1 n.body.kindByte ++ beBytes 2 (n.tunnel.getD 0xFFFF) ++ beBytes 6 n.stamp.toNat
    ++ (List.range 23).map fun i => fields.getD i (Config.noticeByte n (9 + i))

/-- The bytes of a response record: the header of R175, or of a later record, and the open layout of the body
(log 2). -/
def ResponseRecord.bytes (r : ResponseRecord) : List Byte :=
  if r.index = 0 then
    beBytes 2 r.response.tag.toNat ++ beBytes 1 r.response.code ++ beBytes 1 r.response.status.code
      ++ beBytes 1 r.response.result.code ++ beBytes 1 r.records
      ++ (List.range 26).map fun i => Config.bodyByte r.response.body 0 (6 + i)
  else
    beBytes 2 r.response.tag.toNat ++ beBytes 1 r.response.code ++ beBytes 1 r.index
      ++ (List.range 28).map fun i => Config.bodyByte r.response.body r.index (4 + i)

/-- A bit as a number. -/
def bit (b : Bool) : Nat := if b then 1 else 0

/-- The status word (R176).  That its bit 0 is the least significant bit is the model's choice (log 42). -/
def PortState.statusWord (x : PortState) : BusWord :=
  BitVec.ofNat 32
    (bit x.ready + 2 * bit x.restarted + 4 * bit x.overrun + 8 * bit x.accessFault
      + 2 ^ 8 * (Config.requestPlaces - x.requests.length)
      + 2 ^ 16 * x.responses.length + 2 ^ 24 * x.notices.length)

end Sys2Proof.Machine
end

