-- ==== Sys2Proof/Machine/Faults.lean ====
section
/-! DEFINITION. Notice places, the latching and offering of faults, and the end of an event (R100, R128..R134,
R166). -/

namespace Sys2Proof.Machine

/-! ### Notice places (R177) -/

/-- The notice places of a port (R177). -/
def noticePlaces : Port → Nat
  | .traffic | .key => 64
  | .operations => 128

/-- Places of the operations notice queue taken: by notices, and by the PROOF_DONE of a running proof (R131). -/
def Device.opsTaken (d : Device) : Nat := d.operations.notices.length + bit d.proofs.running.isSome

/-- A FAULT notice may be queued (R131). -/
def Device.opsRoom (d : Device) : Bool := decide (d.opsTaken < noticePlaces .operations)

/-- The operations notice queue holds fewer notices than places (R141, R154). -/
def Device.opsQueueOpen (d : Device) : Bool :=
  decide (d.operations.notices.length < noticePlaces .operations)

/-- The GENERATED places reserved on the traffic port (R100). -/
def Device.generatedReserved (d : Device) : Nat :=
  d.engine.control.countP (·.reserved) + (match d.engine.inWork with
    | some w => bit w.frame.reserved
    | none => 0)

/-- A GENERATED place can be reserved (R100). -/
def Device.generatedRoom (d : Device) : Bool :=
  decide (d.traffic.notices.length + d.generatedReserved < noticePlaces .traffic)

/-- The key port's notice queue has room (R91, R113). -/
def Device.keyRoom (d : Device) : Bool := decide (d.key.notices.length < noticePlaces .key)

/-! ### Latching and offering (R128, R130, R131) -/

/-- A latch as it is set: unreported if its kind is in the report set, otherwise silent (R128). -/
def Latch.fresh (now : Clock) (told : Bool) (detail : Nat) (isolated : Bool) : Latch :=
  ⟨if told then .unreported else .silent, now, 1, detail, isolated⟩

/-- A set latch after a further occurrence (R128). -/
def Latch.again (l : Latch) : Latch := { l with observed := bump Config.max16 l.observed }

/-- A latch whose notice has been queued (R131). -/
def Latch.told (l : Latch) : Latch := { l with report := .reported }

/-- The part with a tunnel's latch of a kind set or cleared. -/
def Device.setLatch (d : Device) (t : Nat) (k : TunnelFault) (l : Option Latch) : Device :=
  d.modTunnel t (·.modCondition fun c => { c with latches := c.latches.set k l })

/-- A tunnel's latch of a kind. -/
def Device.latch (d : Device) (t : Nat) (k : TunnelFault) : Option Latch := (d.tunnel t).condition.latches.get k

/-- A target and a kind that has a latch. -/
inductive FaultRef where
  | device (k : DeviceFault)
  | tunnel (t : Nat) (k : TunnelFault)
deriving DecidableEq, Repr

/-- The offer of a device latch's notice: queued if the latch waits and there is room (R131). -/
def Device.offerDevice (d : Device) (k : DeviceFault) : Device :=
  match d.faults.get k with
  | some l =>
    if l.waits && d.opsRoom then
      { d with faults := d.faults.set k (some l.told) }.pushNotice .operations ⟨none, d.clock, .deviceFault k l.told⟩
    else d
  | none => d

/-- The offer of a tunnel latch's notice, with the tunnel's state as it stands (R131, R133). -/
def Device.offerTunnel (d : Device) (t : Nat) (k : TunnelFault) : Device :=
  match d.latch t k with
  | some l =>
    if l.waits && d.opsRoom then
      (d.setLatch t k (some l.told)).pushNotice .operations
        ⟨some t, d.clock, .tunnelFault k l.told (d.tunnel t).state⟩
    else d
  | none => d

/-- The offer of a latch's notice. -/
def Device.offer (d : Device) : FaultRef → Device
  | .device k => d.offerDevice k
  | .tunnel t k => d.offerTunnel t k

/-- An occurrence of a device fault: a clear latch is set, offered and given to the bank; a set one counts it
(R130). -/
def Device.deviceFault (d : Device) (k : DeviceFault) (detail : Nat) : Device :=
  match d.faults.get k with
  | some l => { d with faults := d.faults.set k (some l.again) }
  | none =>
    ({ d with faults := d.faults.set k (some (Latch.fresh d.clock (d.deviceReport.has k) detail false)) }.offerDevice
      k).give .faultsLatched none

/-- An occurrence of a tunnel fault but for its action: a clear latch is set, with the mark whether it isolates,
offered and given to the bank; a set one counts it (R128). -/
def Device.latchTunnel (d : Device) (t : Nat) (k : TunnelFault) (detail : Nat) (isolates : Bool) : Device :=
  match d.latch t k with
  | some l => d.setLatch t k (some l.again)
  | none =>
    ((d.setLatch t k (some (Latch.fresh d.clock ((d.profileOf t).report.has k) detail isolates))).offerTunnel t
      k).give .faultsLatched (some t)

/-- The set latches that wait for a notice place, in scan order: the device, then the tunnels ascending (R132). -/
def Device.waitingFaults (d : Device) : List FaultRef :=
  (DeviceFault.all.filter fun k => (d.faults.get k).any (·.waits)).map .device
    ++ (List.range Config.tunnelCount).flatMap fun t =>
      (TunnelFault.all.filter fun k => (d.latch t k).any (·.waits)).map (.tunnel t)

/-- The scan made when `places` places of the operations notice queue have been freed (R132). -/
def Device.faultScan (d : Device) (places : Nat) : Device := (d.waitingFaults.take places).foldl Device.offer d

/-! ### The end of an event -/

/-- The freeze that a wrapped counter with freeze on overflow makes when all the event's advances have been made, and
the device fault it gives (R166). -/
def Device.freezeOnOverflow (d : Device) : Device :=
  if d.bank.freezeDue then
    { d with bank := { d.bank with state := .frozen .overflow, freezeDue := false } }.deviceFault .monitorOverflow 0
  else d

/-- The end of an event that may have changed a level: the edges are judged, then a freeze that is due is made
(R164, R166). -/
def Device.closeEvent (d : Device) : Device := d.judgeEdges.freezeOnOverflow

end Sys2Proof.Machine
end

