-- ==== Sys2Proof/Machine/Proof.lean ====
section
/-! DEFINITION. The proof engine: building frames, judging echoes, advancing and ending proofs, isolation and the
retry queue (R13, R19, R129, R140..R151). -/

namespace Sys2Proof.Machine

/-! ### Frames that the part builds (R19) -/

/-- What the cell store, the CONTROL queue and the traffic port's notice queue say to a frame the part would build. -/
inductive PartGrant where
  | granted
  | poolShort
  | placeShort
deriving DecidableEq, Repr

/-- The capacity of a work queue (R94). -/
def Queue.capacity : Queue → Nat
  | .control => 64
  | .settle => 384
  | .bulk => 576

/-- The frames of a work queue. -/
def Engine.queue (e : Engine) : Queue → List Frame
  | .control => e.control
  | .settle => e.settle
  | .bulk => e.bulk

/-- The frames that wait in the work queues. -/
def Engine.waiting (e : Engine) : List Frame := e.control ++ e.settle ++ e.bulk

/-- Every frame that waits, and the frame in work. -/
def Engine.held (e : Engine) : List Frame := e.waiting ++ (e.inWork.map (·.frame)).toList

/-- A work queue has room (R97..R99). -/
def Engine.hasRoom (e : Engine) (q : Queue) : Bool := decide ((e.queue q).length < q.capacity)

/-- The engine with a work queue's frames set. -/
def Engine.setQueue (e : Engine) (q : Queue) (fs : List Frame) : Engine :=
  match q with
  | .control => { e with control := fs }
  | .settle => { e with settle := fs }
  | .bulk => { e with bulk := fs }

/-- The test of the three things a frame of `n` cells needs; the reserved pool is asked first (R19, R20). -/
def Device.partGrant (d : Device) (n : Nat) : PartGrant :=
  if d.store.hasRoom .reserved n then
    if d.engine.hasRoom .control && d.generatedRoom then .granted else .placeShort
  else .poolShort

/-- A frame that the part builds, laid in the lowest FREE cells and placed at the tail of CONTROL with a GENERATED
place reserved, in one event (R19). -/
def Device.queuePart (d : Device) (party : Party) (t : Nat) (kind : FrameKind) (payload : List Byte)
    (proof : Option (BitVec 32 × Nat)) : Device :=
  let cells := d.store.lowestFree (cellsFor (payload.length + 32))
  let f : Frame := ⟨party, 0, t, .outbound kind, cells, payload, d.clock, true, false, false, proof⟩
  { d with
    store := (d.store.take .reserved .queued cells).lay cells payload
    engine := { d.engine with control := d.engine.control ++ [f] } }.modTunnel t
      fun x => { x with frameCount := x.frameCount + 1 }

/-- The payload of a proof frame (R13). -/
def proofPayload (p : Pattern) (serial : BitVec 32) : List Byte :=
  beBytes 4 serial.toNat
    ++ (List.range (p.length - 4)).map fun j => BitVec.ofNat 8 (p.seed + ((j + 4) % 256) * p.step)

/-- The serial after a serial: one more, with 1 after FFFFFFFFh (R144). -/
def nextSerial (s : BitVec 32) : BitVec 32 := if s = BitVec.allOnes 32 then 1 else s + 1

/-- A pattern table entry. -/
def ProofUnit.pattern (u : ProofUnit) (k : Nat) : Pattern := u.patterns.getD k ⟨0, 0, 0⟩

/-- The lowest active entry at or above an index (R143, R148). -/
def ProofUnit.activeFrom (u : ProofUnit) (k : Nat) : Option Nat :=
  (List.range 8).find? fun i => decide (k ≤ i) && decide ((u.pattern i).length ≠ 0)

/-- The running proof set or removed. -/
def Device.setProof (d : Device) (r : Option ProofRecord) : Device :=
  { d with proofs := { d.proofs with running := r } }

/-- A proof waits for room for its frame (R144). -/
def Device.proofWaits (d : Device) : Bool :=
  match d.proofs.running with
  | some r => decide (r.phase = .waitCell)
  | none => false

/-- An attempt to build the frame of the current entry (R144). -/
def Device.buildAttempt (d : Device) : Device :=
  let d := { d with buildDue := false }
  match d.proofs.running with
  | some r =>
    if r.phase = .waitCell then
      let p := d.proofs.pattern r.entry
      match d.partGrant (cellsFor (p.length + 32)) with
      | .granted =>
        let serial := nextSerial d.proofs.serial
        { d with proofs := { d.proofs with serial := serial, running := some { r with phase := .inFlight serial } }
          }.queuePart .proofEngine r.tunnel .proof (proofPayload p serial) (some (serial, r.entry))
      | .poolShort => d.deviceFault .reserveExhausted 0
      | .placeShort => d
    else d
  | none => d

/-! ### Starts (R141, R143) -/

/-- A proof started, in order: the record, the capture record, the flag, and the first build attempt (R143). -/
def Device.startProof (d : Device) (t : Nat) (purpose : Purpose) (mode : ProofMode) (rounds : Nat) : Device :=
  let r : ProofRecord :=
    ⟨t, purpose, mode, rounds, 0, (d.proofs.activeFrom 0).getD 0, .waitCell, List.replicate 8 0, 0, 0⟩
  ({ d with proofs := { d.proofs with running := some r, capture := none } }.modTunnel t fun x =>
    { x with underProof := true }).buildAttempt

/-- The retry start test, and the start it makes when it passes (R141). -/
def Device.retryStartTest (d : Device) : Device :=
  match d.proofs.running, d.proofs.retry with
  | none, t :: rest =>
    if d.opsQueueOpen then
      { d with proofs := { d.proofs with retry := rest } }.startProof t .retry .stopFirst 1
    else d
  | _, _ => d

/-- A tunnel joins the tail of the retry queue, and the test that follows is made (R140, R141, R156). -/
def Device.joinRetry (d : Device) (t : Nat) : Device :=
  { d with proofs := { d.proofs with retry := d.proofs.retry ++ [t] } }.retryStartTest

/-! ### The end of a proof (R149, R150) -/

/-- A RETRY proof that ended so counts as a failed retry (R150). -/
def countsAsFailed (result : ProofResult) (cause : Option AbortCause) : Bool :=
  match result, cause with
  | .missed, _ => true
  | .aborted, some .keyUnusable | .aborted, some .notInService | .aborted, some .outboundCause => true
  | _, _ => false

/-- The retry result of a RETRY proof on its tunnel (R150, R38). -/
def Device.retryResult (d : Device) (t : Nat) (result : ProofResult) (cause : Option AbortCause) : Device :=
  if result = .passed then d.modTunnel t fun x => { x with state := .inService, retryCount := 0 }
  else if countsAsFailed result cause then
    let p := d.profileOf t
    d.modTunnel t fun x =>
      if x.retryCount + 1 ≤ p.retryLimit then
        { x with retryCount := x.retryCount + 1, holdDeadline := some (d.after (seconds p.holdTime)) }
      else { x with retryCount := x.retryCount + 1, state := .failed, holdDeadline := none }
  else d

/-- The fault that the end of a proof latches, if any (R149).  R149 also says that an ABORTED proof latches no fault:
that TUNNEL_FAILED is latched where an ABORTED RETRY proof takes its tunnel to FAILED, by step 5 of R149 and the
failures that R150 counts, is the model's reading (log 43). -/
def Device.proofFault (d : Device) (r : ProofRecord) (result : ProofResult) (cause : Option AbortCause) : Device :=
  match r.purpose with
  | .operations =>
    if result = .missed then d.latchTunnel r.tunnel .proofFailed r.misses.sum false else d
  | .retry =>
    if countsAsFailed result cause && decide ((d.tunnel r.tunnel).state = .failed) then
      d.latchTunnel r.tunnel .tunnelFailed (d.tunnel r.tunnel).retryCount false
    else d

/-- The end of the running proof (R149). -/
def Device.endProof (d : Device) (result : ProofResult) (cause : Option AbortCause) : Device :=
  match d.proofs.running with
  | none => d
  | some r =>
    let misses := r.misses.sum
    let d := { d with proofs := { d.proofs with
      running := none
      last := some ⟨r.tunnel, r.purpose, r.mode, result, r.completed, r.sent, misses, r.strays, d.clock⟩ } }
    let d := d.modTunnel r.tunnel fun x => { x with underProof := false }
    let d := if r.purpose = .retry then d.retryResult r.tunnel result cause else d
    let x := d.tunnel r.tunnel
    let d := d.pushNotice .operations ⟨some r.tunnel, d.clock, .proofDone r.purpose r.mode result cause r.completed
      r.sent misses r.strays d.proofs.capture.isSome x.state x.retryCount⟩
    (d.proofFault r result cause).retryStartTest

/-- The running proof ends ABORTED if it is on this tunnel and of a purpose that the cause reaches (R151). -/
def Device.abortProof (d : Device) (t : Nat) (cause : AbortCause) (reaches : Purpose → Bool) : Device :=
  match d.proofs.running with
  | some r => if r.tunnel = t ∧ reaches r.purpose then d.endProof .aborted (some cause) else d
  | none => d

/-- A cause that reaches OPERATIONS proofs only. -/
def onlyOperations : Purpose → Bool
  | .operations => true
  | .retry => false

/-- A cause that reaches proofs of either purpose. -/
def anyPurpose : Purpose → Bool := fun _ => true

/-! ### Reports, echoes and misses (R145..R148) -/

/-- Frames sent after one more: at the upper bound the spec states no value (R142; log 19). -/
def ProofRecord.sentAfter (r : ProofRecord) (draw : Nat) : Nat :=
  if r.sent < Config.max32 then r.sent + 1 else (Config.framesSentPastBound draw).toNat

/-- The report of a proof frame's end, matched by its serial (R145). -/
def Device.proofReport (d : Device) (serial : BitVec 32) (outcome : Result) : Device :=
  match d.proofs.running with
  | some r =>
    if r.phase = .inFlight serial then
      match outcome with
      | .sent =>
        { d with draws := if r.sent < Config.max32 then d.draws else d.draws + 1 }.setProof
          (some { r with sent := r.sentAfter d.draws, phase := .awaitEcho serial (d.after (millis 250)) })
      | .keyUnusable => d.endProof .aborted (some .keyUnusable)
      | .notInService => d.endProof .aborted (some .notInService)
      | _ => d
    else d
  | none => d

/-- The entry into WAIT_CELL for a pattern entry, with the build attempt made at it (R144, R148). -/
def Device.waitFor (d : Device) (r : ProofRecord) (entry : Nat) : Device :=
  (d.setProof (some { r with entry := entry, phase := .waitCell })).buildAttempt

/-- The advance of the running proof after a match, or after a miss in CONTINUOUS (R148). -/
def Device.advanceProof (d : Device) : Device :=
  match d.proofs.running with
  | none => d
  | some r =>
    match d.proofs.activeFrom (r.entry + 1) with
    | some k => d.waitFor r k
    | none =>
      let r := { r with completed := bump Config.max32 r.completed }
      if r.requested ≠ 0 ∧ r.completed = r.requested then
        (d.setProof (some r)).endProof (if r.misses.all (· == 0) then .passed else .missed) none
      else d.waitFor r ((d.proofs.activeFrom 0).getD 0)

/-- The lowest offset of 4 or above at which two payloads differ: the shorter length where they agree up to it
(R147). -/
def firstDiff (sent echo : List Byte) : Nat :=
  let n := min sent.length echo.length
  ((List.range n).find? fun i => decide (4 ≤ i) && decide (sent.getD i 0 ≠ echo.getD i 0)).getD n

/-- The capture record of a miss; `echo` is the payload received, none for a TIMEOUT (R147). -/
def captureOf (r : ProofRecord) (serial : BitVec 32) (kind : MissKind) (sent : List Byte)
    (echo : Option (List Byte)) : Capture :=
  match echo with
  | none => ⟨r.tunnel, r.completed + 1, r.entry, serial, kind, none, none, none, none⟩
  | some e =>
    let o := firstDiff sent e
    ⟨r.tunnel, r.completed + 1, r.entry, serial, kind, some e.length, some o, sent[o]?, e[o]?⟩

/-- A miss of the running proof (R147). -/
def Device.proofMiss (d : Device) (r : ProofRecord) (serial : BitVec 32) (kind : MissKind)
    (echo : Option (List Byte)) : Device :=
  let r' := { r with misses := r.misses.modify r.entry (bump Config.max16) }
  let d := (d.setProof (some r')).give .proofMisses (some r.tunnel)
  match r.mode with
  | .stopFirst =>
    let c := captureOf r serial kind (proofPayload (d.proofs.pattern r.entry) serial) echo
    { d with proofs := { d.proofs with capture := some c } }.endProof .missed none
  | .continuous => d.advanceProof

/-- An echo handed over is the one awaited: which serial it answers, and for which proof (R146). -/
def Device.awaited (d : Device) (t index : Nat) (payload : List Byte) : Option (ProofRecord × BitVec 32) :=
  match d.proofs.running with
  | some r =>
    match r.phase with
    | .awaitEcho serial _ =>
      if r.tunnel = t ∧ 4 ≤ payload.length ∧ payload.take 4 = beBytes 4 serial.toNat ∧ index = r.entry then
        some (r, serial)
      else none
    | .waitCell | .inFlight _ => none
  | none => none

/-- A stray echo: counted by a proof on its tunnel, and given to the bank (R146). -/
def Device.strayEcho (d : Device) (t : Nat) : Device :=
  let d := match d.proofs.running with
    | some r => if r.tunnel = t then d.setProof (some { r with strays := bump Config.max16 r.strays }) else d
    | none => d
  d.give .strayEchoes (some t)

/-- The hand-over of an authenticated echo (R146). -/
def Device.handEcho (d : Device) (t index : Nat) (payload : List Byte) : Device :=
  match d.awaited t index payload with
  | some (r, serial) =>
    if payload = proofPayload (d.proofs.pattern r.entry) serial then d.advanceProof
    else d.proofMiss r serial .mismatch (some payload)
  | none => d.strayEcho t

/-! ### Isolation (R129) -/

/-- An IN_SERVICE tunnel becomes ISOLATED with its hold started (R129, R38). -/
def Device.isolate (d : Device) (t : Nat) : Device :=
  (d.modTunnel t fun x =>
    { x with state := .isolated, holdDeadline := some (d.after (seconds (d.profileOf t).holdTime)) }).abortProof t
      .isolated onlyOperations

/-- An occurrence of a tunnel fault: latched, and acted on if the latching isolates the tunnel (R128, R129). -/
def Device.tunnelFault (d : Device) (t : Nat) (k : TunnelFault) (detail : Nat) : Device :=
  let isolates := decide (d.latch t k = none) && (d.profileOf t).action.has k
    && decide ((d.tunnel t).state = .inService)
  let d := d.latchTunnel t k detail isolates
  if isolates then d.isolate t else d

end Sys2Proof.Machine
end

