-- ==== Sys2Proof/Machine/Keys.lean ====
section
/-! DEFINITION. The key unit: entries, slots, retirement, promotion and following, the window, binding and limits,
ages and key notices (R51..R93, R49). -/

namespace Sys2Proof.Machine

/-! ### Key store entries (R51, R52) -/

/-- The part with a key store entry set; a free entry holds nothing. -/
def Device.setEntry (d : Device) (e : Nat) (v : KeyEntry) : Device :=
  { d with keys := { d.keys with entries := SMap.put .free d.keys.entries e v } }

/-- A key store entry. -/
def KeyUnit.entry (u : KeyUnit) (e : Nat) : KeyEntry := SMap.get .free u.entries e

/-- The free entry with the lowest number, if the store has one (R51). -/
def KeyUnit.lowestFree (u : KeyUnit) : Option Nat :=
  (List.range Config.entryCount).find? fun e => decide (u.entry e = .free)

/-! ### Slots (R54) -/

/-- The key record in a slot. -/
def Tunnel.key? (r : Tunnel) : Slot → Option KeyRecord
  | .next => r.next.map (·.key)
  | .current => r.current.map (·.key)
  | .previous => r.previous

/-- The key record in a slot changed. -/
def Tunnel.modKey (r : Tunnel) (s : Slot) (f : KeyRecord → KeyRecord) : Tunnel :=
  match s with
  | .next => { r with next := r.next.map fun n => { n with key := f n.key } }
  | .current => { r with current := r.current.map fun c => { c with key := f c.key } }
  | .previous => { r with previous := r.previous.map f }

/-- A slot made ABSENT. -/
def Tunnel.dropKey (r : Tunnel) (s : Slot) : Tunnel :=
  match s with
  | .next => { r with next := none }
  | .current => { r with current := none }
  | .previous => { r with previous := none }

/-- The slot whose record holds this key store entry. -/
def Tunnel.slotOf (r : Tunnel) (entry : Nat) : Option Slot :=
  [Slot.next, .current, .previous].find? fun s => (r.key? s).any fun k => k.entry == entry

/-- The record of this tunnel that holds a key store entry, changed in whichever slot it stands (R56). -/
def Device.modKeyOf (d : Device) (t entry : Nat) (f : KeyRecord → KeyRecord) : Device :=
  match (d.tunnel t).slotOf entry with
  | some s => d.modTunnel t (·.modKey s f)
  | none => d

/-! ### Retirement (R68, R69) -/

/-- The key in a slot retired: its entry wiped and free, its record discarded, its slot ABSENT (R68). -/
def Device.dropKey (d : Device) (t : Nat) (s : Slot) : Device :=
  match (d.tunnel t).key? s with
  | some k => (d.setEntry k.entry .free).modTunnel t (·.dropKey s)
  | none => d

/-- A cause of retirement reaches the key in a slot: it is retired, or marked retire pending where it is bound
(R69). -/
def Device.retireKey (d : Device) (t : Nat) (s : Slot) : Device :=
  match (d.tunnel t).key? s with
  | some k => if k.bound then d.modTunnel t (·.modKey s fun k => { k with retirePending := true }) else d.dropKey t s
  | none => d

/-- The end of a frame's hold on the record it bound: the bound mark is cleared, and a retirement that was pending is
made (R56, R69). -/
def Device.releaseKey (d : Device) (t entry : Nat) : Device :=
  match (d.tunnel t).slotOf entry with
  | some s =>
    let d := d.modTunnel t (·.modKey s fun k => { k with bound := false })
    if ((d.tunnel t).key? s).any (·.retirePending) then d.dropKey t s else d
  | none => d

/-! ### Key notices (R91, R92) -/

/-- The three notice flags of a key, in scan order (R92). -/
inductive KeyFlag where
  | expired
  | renewal
  | followed
deriving DecidableEq, Repr

/-- A flag stands unreported. -/
def Flag.waits {ρ : Type} : Flag ρ → Bool
  | .unreported _ => true
  | .no | .reported _ => false

/-- A flag made reported. -/
def Flag.told {ρ : Type} : Flag ρ → Flag ρ
  | .unreported w => .reported w
  | .no => .no
  | .reported w => .reported w

/-- A reported flag made unreported again, at a key port reset (R53). -/
def Flag.untold {ρ : Type} : Flag ρ → Flag ρ
  | .reported w => .unreported w
  | .no => .no
  | .unreported w => .unreported w

/-- A flag at no made unreported with a reason; another is left (R83, R85). -/
def Flag.raise {ρ : Type} (w : ρ) : Flag ρ → Flag ρ
  | .no => .unreported w
  | .unreported v => .unreported v
  | .reported v => .reported v

/-- Whether a flag of a key waits for a notice place. -/
def KeyRecord.waits (k : KeyRecord) : KeyFlag → Bool
  | .expired => k.expired.waits
  | .renewal => k.renewal.waits
  | .followed => k.followed.waits

/-- A key with a flag made reported. -/
def KeyRecord.told (k : KeyRecord) : KeyFlag → KeyRecord
  | .expired => { k with expired := k.expired.told }
  | .renewal => { k with renewal := k.renewal.told }
  | .followed => { k with followed := k.followed.told }

/-- A key's reported flags made unreported (R53). -/
def KeyRecord.untold (k : KeyRecord) : KeyRecord :=
  { k with renewal := k.renewal.untold, expired := k.expired.untold, followed := k.followed.untold }

/-- The age of a key: now less its age start (R84). -/
def Device.ageOf (d : Device) (k : KeyRecord) : Option Nat := k.ageStart.map d.since

/-- The notice of an unreported flag, with the key's values as they stand (R91). -/
def Device.keyNotice (d : Device) (s : Slot) (k : KeyRecord) : KeyFlag → Option NoticeBody
  | .expired =>
    match k.expired with
    | .unreported w => some (.keyExpired k.epoch s w k.outCount)
    | .no | .reported _ => none
  | .renewal =>
    match k.renewal with
    | .unreported w => some (.renewalDue k.epoch s w k.outCount (d.ageOf k))
    | .no | .reported _ => none
  | .followed =>
    match k.followed with
    | .unreported w => some (.keyFollowed k.epoch s w)
    | .no | .reported _ => none

/-- The offer of one flag's notice: queued if the key port's notice queue has room (R91). -/
def Device.offerFlag (d : Device) (x : Nat × Slot × KeyFlag) : Device :=
  match (d.tunnel x.1).key? x.2.1 with
  | some k =>
    match d.keyNotice x.2.1 k x.2.2 with
    | some body =>
      if d.keyRoom then
        (d.modTunnel x.1 (·.modKey x.2.1 (·.told x.2.2))).pushNotice .key ⟨some x.1, d.clock, body⟩
      else d
    | none => d
  | none => d

/-- The unreported flags of a tunnel's CURRENT and PREVIOUS keys, in scan order (R92). -/
def Device.flagsOf (d : Device) (t : Nat) : List (Nat × Slot × KeyFlag) :=
  [Slot.current, .previous].flatMap fun s =>
    match (d.tunnel t).key? s with
    | some k => ([KeyFlag.expired, .renewal, .followed].filter k.waits).map fun f => (t, s, f)
    | none => []

/-- The unreported flags of every tunnel, in scan order (R92). -/
def Device.waitingFlags (d : Device) : List (Nat × Slot × KeyFlag) :=
  (List.range Config.tunnelCount).flatMap d.flagsOf

/-- The scan made when `places` places of the key port's notice queue are free for it (R92). -/
def Device.keyFlagScan (d : Device) (places : Nat) : Device := (d.waitingFlags.take places).foldl Device.offerFlag d

/-- The offer, at the end of an event, of the flags that it has made unreported: in scan order, each taking a place as
long as places remain (R91; log 15). -/
def Device.offerFlags (d : Device) : Device := d.waitingFlags.foldl Device.offerFlag d

/-- A DIALOGUE_IN notice finds a free place on the key port: those of the flags that the event has made unreported are
taken (R91, R113; log 15). -/
def Device.dialogueRoom (d : Device) : Bool :=
  decide (d.key.notices.length + d.waitingFlags.length < noticePlaces .key)

/-! ### Causes (R43, R151) -/

/-- A key cause added to a tunnel's outbound causes: where it is newly added, a proof on the tunnel is aborted
(R43, R151). -/
def Device.addKeyCause (d : Device) (t : Nat) (c : KeyCause) : Device :=
  let fresh := !(d.tunnel t).outCauses.has c
  let d := d.modTunnel t fun x => { x with outCauses := x.outCauses.add c }
  if fresh then d.abortProof t .outboundCause anyPurpose else d

/-! ### Promotion and follow (R73, R74, R80) -/

/-- A clock value a number of microseconds after another, modulo 2^48 (R185). -/
def later (start : Clock) (us : Nat) : Clock := start + BitVec.ofNat 48 us

/-- What a promotion tells: the epoch that became PREVIOUS, and the epochs retired or marked (R72). -/
structure Promotion where
  previous : Option Nat
  retired  : List Nat
deriving DecidableEq, Repr

/-- Step 1 of a promotion: the PREVIOUS key is retired early, or marked where it is bound (R73).  A PREVIOUS key that
was retire pending before gives the event and is told as well (log 37). -/
def Device.earlyRetire (d : Device) (t : Nat) : Device × List Nat :=
  match (d.tunnel t).previous with
  | some k => ((d.retireKey t .previous).give .earlyRetires (some t), [k.epoch])
  | none => (d, [])

/-- The CURRENT key moved to PREVIOUS with a grace deadline or none (R73). -/
def Device.demote (d : Device) (t : Nat) (k : KeyRecord) (grace : Option Clock) (pending : Bool) : Device :=
  d.modTunnel t fun x =>
    { x with
      current := none
      previous := some { k with
        graceDeadline := grace, softDeadline := none, hardDeadline := none
        retirePending := k.retirePending || pending } }

/-- Step 2 of a promotion: demotion of an ACTIVE or SPENT CURRENT, retirement of an EXPIRED one, or displacement
where the PREVIOUS slot is still held (R73, R74). -/
def Device.demotion (d : Device) (t : Nat) : Device × Promotion :=
  let x := d.tunnel t
  match x.current with
  | none => (d, ⟨none, []⟩)
  | some c =>
    if x.previous.isSome then
      let d := d.retireKey t .current
      (if c.state = .expired then d else d.give .earlyRetires (some t), ⟨none, [c.key.epoch]⟩)
    else
      match c.state with
      | .active | .spent =>
        (d.demote t c.key (some (d.after (millis (d.profileOf t).grace))) false, ⟨some c.key.epoch, []⟩)
      | .expired =>
        if c.key.bound then (d.demote t c.key none true, ⟨some c.key.epoch, [c.key.epoch]⟩)
        else (d.retireKey t .current, ⟨none, [c.key.epoch]⟩)

/-- Steps 3 to 5 of a promotion: the NEXT key becomes CURRENT, the key causes go, and a PROVISIONED tunnel enters
service with its silence and keepalive timers started (R73, R37, R120). -/
def Device.advanceKey (d : Device) (t : Nat) (k : KeyRecord) : Device :=
  let p := d.profileOf t
  d.modTunnel t fun x =>
    let x := { x with
      next := none
      current := some ⟨.active, { k with
        outCount := 0, ageStart := some d.clock
        softDeadline := some (d.after (seconds p.softAge)), hardDeadline := some (d.after (seconds p.hardAge)) }⟩
      outCauses := ⟨x.outCauses.ops, false, false⟩ }
    if x.state = .provisioned then
      { x with state := .inService }.modCondition fun c =>
        { c with
          silenceDeadline := some (d.after (seconds p.silence))
          keepaliveDeadline := if p.keepalive = 0 then none else some (d.after (seconds p.keepalive)) }
    else x

/-- The promotion of a tunnel's NEXT key (R73, R74). -/
def Device.promote (d : Device) (t : Nat) : Device × Promotion :=
  match (d.tunnel t).next with
  | none => (d, ⟨none, []⟩)
  | some n =>
    let (d, early) := d.earlyRetire t
    let (d, told) := d.demotion t
    ((d.advanceKey t n.key).give .promotions (some t), ⟨told.previous, early ++ told.retired⟩)

/-- The states in which a follow is made (R80). -/
def TunnelState.promotes : TunnelState → Bool
  | .provisioned | .inService | .isolated => true
  | .empty | .failed | .closing => false

/-- The follow test after an authenticated frame under the record with this entry, and the follow (R80). -/
def Device.followTest (d : Device) (t entry : Nat) : Device :=
  let x := d.tunnel t
  match x.next with
  | some n =>
    if n.ready ∧ n.key.entry = entry ∧ ¬ n.key.retirePending ∧ (d.profileOf t).followPeer ∧ x.state.promotes then
      let (d, told) := d.promote t
      let d := d.modTunnel t (·.modKey .current fun k => { k with followed := .unreported told.previous })
      d.give .follows (some t)
    else d
  | none => d

/-! ### The window (R78) -/

/-- A number put in its place of a list from the highest down. -/
def insertDown (s : Nat) : List Nat → List Nat
  | [] => [s]
  | x :: xs => if x < s then s :: x :: xs else x :: insertDown s xs

/-- The judgement of a verified sequence number by a key's window: the record after it, or none for REPLAY (R78). -/
def KeyRecord.judge (k : KeyRecord) (s : Nat) : Option KeyRecord :=
  if k.highest < s then
    let held := if k.highest = 0 then k.accepted else k.highest :: k.accepted
    some { k with highest := s, accepted := held.filter fun n => decide (s ≤ n + 63) }
  else if 0 < s ∧ s < k.highest ∧ k.highest ≤ s + 63 ∧ s ∉ k.accepted then
    some { k with accepted := insertDown s k.accepted }
  else none

/-! ### Binding and limits (R82, R83) -/

/-- The CURRENT key after a bind: its count, its mark, and what the frame limits make of it (R82, R83). -/
def CurrentKey.bind (c : CurrentKey) (p : Profile) : CurrentKey :=
  let n := c.key.outCount + 1
  let k := { c.key with outCount := n, bound := true }
  let k := if p.softFrames ≤ n then { k with renewal := k.renewal.raise .frames } else k
  if p.hardFrames ≤ n then ⟨.spent, { k with expired := .unreported .spent }⟩ else ⟨c.state, k⟩

/-- An outbound frame bound to a tunnel's CURRENT key: its limits tested, and KEY_SPENT added where it is spent
(R82, R83). -/
def Device.bindOutbound (d : Device) (t : Nat) : Device :=
  match (d.tunnel t).current with
  | none => d
  | some c =>
    let b := c.bind (d.profileOf t)
    let d := d.modTunnel t fun x => { x with current := some b }
    if b.state = .spent then d.addKeyCause t .spent else d

/-! ### Age (R84..R86, R49) -/

/-- The CURRENT key of a tunnel reaches its soft age deadline (R85). -/
def Device.softAge (d : Device) (t : Nat) : Device :=
  d.modTunnel t (·.modKey .current fun k => { k with softDeadline := none, renewal := k.renewal.raise .age })

/-- The CURRENT key of a tunnel reaches its hard age deadline (R86).  The soft deadline goes with the hard one
(log 27). -/
def Device.hardAge (d : Device) (t : Nat) : Device :=
  match (d.tunnel t).current with
  | none => d
  | some c =>
    let k := { c.key with
      softDeadline := none, hardDeadline := none, expired := .unreported .age, renewal := c.key.renewal.raise .age }
    let d := d.modTunnel t fun x => { x with current := some ⟨.expired, k⟩ }
    (d.addKeyCause t .expired).tunnelFault t .keyExpired k.epoch

/-- A deadline that R49 keeps: one that lies after now (R84). -/
def keptDeadline (start : Option Clock) (age : Option Nat) (limit : Nat) : Option Clock :=
  match start, age with
  | some s, some a => if a < seconds limit then some (later s (seconds limit)) else none
  | _, _ => none

/-- A re-examination finds that a key has come to the hard age (R49). -/
def CurrentKey.ageEnds (c : CurrentKey) (p : Profile) (age : Option Nat) : Bool :=
  decide (c.state ≠ .expired ∧ seconds p.hardAge ≤ age.getD 0)

/-- A re-examination finds that an ACTIVE key has come to the hard frame limit (R49). -/
def CurrentKey.countEnds (c : CurrentKey) (p : Profile) : Bool :=
  decide (c.state = .active ∧ p.hardFrames ≤ c.key.outCount)

/-- A CURRENT key re-examined against a profile: its state, flags and deadlines (R49). -/
def CurrentKey.reexamine (c : CurrentKey) (p : Profile) (age : Option Nat) : CurrentKey :=
  let state := if c.ageEnds p age then .expired else if c.countEnds p then .spent else c.state
  let deadline (limit : Nat) := if state = .expired then none else keptDeadline c.key.ageStart age limit
  ⟨state, { c.key with
    expired :=
      if c.ageEnds p age then .unreported .age else if c.countEnds p then .unreported .spent else c.key.expired
    renewal :=
      if p.softFrames ≤ c.key.outCount then c.key.renewal.raise .frames
      else if seconds p.softAge ≤ age.getD 0 then c.key.renewal.raise .age
      else c.key.renewal
    softDeadline := deadline p.softAge
    hardDeadline := deadline p.hardAge }⟩

/-- The states whose CURRENT key R49 re-examines. -/
def TunnelState.reexamined : TunnelState → Bool
  | .inService | .isolated | .failed => true
  | .empty | .provisioned | .closing => false

/-- The re-examination of one tunnel's CURRENT key, with its causes added (R49). -/
def Device.reexamineTunnel (d : Device) (t : Nat) : Device :=
  match (d.tunnel t).current with
  | none => d
  | some c =>
    let p := d.profileOf t
    let age := d.ageOf c.key
    let d := d.modTunnel t fun x => { x with current := some (c.reexamine p age) }
    let d := if c.ageEnds p age then d.addKeyCause t .expired else d
    let d := if c.countEnds p then d.addKeyCause t .spent else d
    if c.ageEnds p age then d.tunnelFault t .keyExpired c.key.epoch else d

/-- The re-examination that a write of a profile's KEYS group makes, in ascending tunnel number (R49). -/
def Device.reexamine (d : Device) (profile : Nat) : Device :=
  (List.range Config.tunnelCount).foldl
    (fun d t =>
      let x := d.tunnel t
      if x.state.reexamined ∧ x.profile = some profile then d.reexamineTunnel t else d) d

end Sys2Proof.Machine
end

