-- ==== Sys2Proof/Machine/Condition.lean ====
section
/-! DEFINITION. The condition monitor: counting outcomes, storms, silence and keepalives (R119..R127). -/

namespace Sys2Proof.Machine

/-- The part with a tunnel's condition record changed. -/
def Device.modCondition (d : Device) (t : Nat) (f : Condition → Condition) : Device :=
  d.modTunnel t (·.modCondition f)

/-- An inbound outcome counted against a tunnel, if its interval timer runs (R121). -/
def Device.countOutcome (d : Device) (t : Nat) (k : Counted) : Device :=
  d.modCondition t fun c => if c.intervalDeadline.isSome then c.count k else c

/-- An authenticated inbound frame restarts the silence timer where it runs (R121, R124). -/
def Device.authenticated (d : Device) (t : Nat) : Device :=
  let at_ := d.after (seconds (d.profileOf t).silence)
  d.modCondition t fun c => { c with silenceDeadline := c.silenceDeadline.map fun _ => at_ }

/-- The deadline that a restart of a keepalive timer sets: none for an interval of 0 (R125). -/
def Device.keepaliveAt (d : Device) (t : Nat) : Option Clock :=
  let n := (d.profileOf t).keepalive
  if n = 0 then none else some (d.after (seconds n))

/-- A SENT completion restarts the keepalive timer where it runs (R125; log 18). -/
def Device.outboundSent (d : Device) (t : Nat) : Device :=
  let at_ := d.keepaliveAt t
  d.modCondition t fun c => { c with keepaliveDeadline := if c.keepaliveDeadline.isSome then at_ else none }

/-- A keepalive completed SENT (R127). -/
def Device.keepaliveSent (d : Device) (t : Nat) : Device :=
  (d.modCondition t fun c =>
    { c with outstanding := false, keepalivesSent := bump Config.max32 c.keepalivesSent }).give .keepalivesSent (some t)

/-- A keepalive failed at take or was removed (R127). -/
def Device.keepaliveEnded (d : Device) (t : Nat) : Device := d.modCondition t fun c => { c with outstanding := false }

/-- The runs of a condition record after an interval (R122). -/
def Condition.runsAfter (c : Condition) (p : Profile) : StormCounts :=
  ⟨runAfter p.authThreshold c.counts.authFail c.runs.authFail,
   runAfter p.replayThreshold c.counts.replay c.runs.replay,
   runAfter p.epochThreshold c.counts.epochMiss c.runs.epochMiss⟩

/-- The expiry of a tunnel's interval deadline (R122). -/
def Device.intervalEnds (d : Device) (t : Nat) : Device :=
  let p := d.profileOf t
  let counts := (d.tunnel t).condition.counts
  let runs := (d.tunnel t).condition.runsAfter p
  let d := d.modCondition t fun c => { c with runs := runs }
  let d := if p.persistence ≤ runs.authFail then d.tunnelFault t .authStorm counts.authFail else d
  let d := if p.persistence ≤ runs.replay then d.tunnelFault t .replayStorm counts.replay else d
  let d := if p.persistence ≤ runs.epochMiss then d.tunnelFault t .epochDrift counts.epochMiss else d
  let keepalive := d.keepaliveAt t
  d.modTunnel t fun x => x.modCondition fun c =>
    { c with
      counts := ⟨0, 0, 0⟩
      intervalStart := some d.clock
      intervalDeadline := some (d.after (seconds p.interval))
      keepaliveDeadline :=
        if c.keepaliveDeadline = none ∧ x.state.reexamined then keepalive else c.keepaliveDeadline }

/-- The expiry of a tunnel's silence deadline (R124). -/
def Device.silenceEnds (d : Device) (t : Nat) : Device :=
  let limit := (d.profileOf t).silence
  let d := d.tunnelFault t .shopSilent limit
  d.modCondition t fun c => { c with silenceDeadline := some (d.after (seconds limit)) }

/-- A keepalive may be built: the tunnel is IN_SERVICE or ISOLATED, its CURRENT key is ACTIVE, and no keepalive is
outstanding (R126). -/
def Tunnel.keepaliveWanted (x : Tunnel) : Bool :=
  (decide (x.state = .inService) || decide (x.state = .isolated))
    && x.current.any (fun c => decide (c.state = .active)) && !x.condition.outstanding

/-- A keepalive skipped (R126). -/
def Device.skipKeepalive (d : Device) (t : Nat) : Device :=
  (d.modCondition t fun c => { c with keepalivesSkipped := bump Config.max32 c.keepalivesSkipped }).give
    .keepalivesSkipped (some t)

/-- The expiry of a tunnel's keepalive deadline: the timer restarts, then a keepalive is built, or skipped
(R126, R12). -/
def Device.keepaliveEnds (d : Device) (t : Nat) : Device :=
  let at_ := d.keepaliveAt t
  let d := d.modCondition t fun c => { c with keepaliveDeadline := at_ }
  if (d.tunnel t).keepaliveWanted then
    match d.partGrant 1 with
    | .granted =>
      (d.queuePart .conditionMonitor t .keepalive [] none).modCondition t fun c => { c with outstanding := true }
    | .poolShort => (d.deviceFault .reserveExhausted 0).skipKeepalive t
    | .placeShort => d.skipKeepalive t
  else d

end Sys2Proof.Machine
end

