-- ==== Sys2Proof/Machine/Engine.lean ====
section
/-! DEFINITION. The cipher engine and scheduler: headers, submission, take decisions, checks, completions, removals,
and the settling of an event (R2..R14, R94..R118, R41). -/

namespace Sys2Proof.Machine

/-! ### Headers (R2, R11) -/

/-- The kind byte of a kind (R2). -/
def FrameKind.byte : FrameKind → Nat
  | .data => 1
  | .keepalive => 2
  | .proof => 3
  | .proofEcho => 4
  | .dialogue => 5

/-- The kind of a kind byte, if it is one (R2). -/
def FrameKind.ofByte : Nat → Option FrameKind
  | 1 => some .data
  | 2 => some .keepalive
  | 3 => some .proof
  | 4 => some .proofEcho
  | 5 => some .dialogue
  | _ => none

/-- The sixteen bytes of a header (R2). -/
def Header.bytes (h : Header) : List Byte :=
  beBytes 1 h.format ++ beBytes 1 h.kind ++ beBytes 1 h.epoch ++ beBytes 1 h.index ++ beBytes 1 h.direction
    ++ beBytes 3 h.shop ++ beBytes 6 h.sequence ++ beBytes 2 h.length

/-- The header that sixteen bytes spell (R2). -/
def Header.ofBytes (bs : List Byte) : Header where
  format := beNat (slice bs 0 1)
  kind := beNat (slice bs 1 1)
  epoch := beNat (slice bs 2 1)
  index := beNat (slice bs 3 1)
  direction := beNat (slice bs 4 1)
  shop := beNat (slice bs 5 3)
  sequence := beNat (slice bs 8 6)
  length := beNat (slice bs 14 2)

/-- The tests of R11 that a header passes, against the shop code of the named tunnel and the submitted length. -/
def Header.wellFormed (h : Header) (shop : Option (BitVec 24)) (size : Nat) : Bool :=
  decide (h.format = 3) && decide (1 ≤ h.kind ∧ h.kind ≤ 5) && decide (h.direction = 2)
    && decide (shop.map (·.toNat) = some h.shop) && decide (h.length + 32 = size)
    && (if h.kind = 3 ∨ h.kind = 4 then decide (h.index ≤ 7) else decide (h.index = 0))

/-- The header of an inbound frame: its first 16 bytes, those of its first cell as submitted (R10, R23). -/
def Frame.header (f : Frame) : Header := Header.ofBytes (slice f.content 0 16)

/-! ### Submission (R4, R97..R99) -/

/-- The entry test: an event that placed a frame in SETTLE leaves it at or above the high mark (R104). -/
def Device.entryTest (d : Device) : Device :=
  if d.engine.marks.high ≤ d.engine.settle.length then
    match d.engine.mode with
    | .base .normal =>
      { d with engine := { d.engine with mode := .base .settleFirst } }.give .settleFirstEntries none
    | .rescue .normal n =>
      { d with engine := { d.engine with mode := .rescue .settleFirst n } }.give .settleFirstEntries none
    | .base .settleFirst | .rescue .settleFirst _ => d
  else d

/-- A frame of a master placed at the tail of a queue, its cells QUEUED (R97, R98, R99).  The take decision that
follows is made as the event is settled. -/
def Device.submit (d : Device) (q : Queue) (f : Frame) : Device :=
  let d := (d.passCells f.cells .queued).modTunnel f.tunnel fun x => { x with frameCount := x.frameCount + 1 }
  let d := { d with engine := d.engine.setQueue q (d.engine.queue q ++ [f]) }
  if q = .settle then d.entryTest else d

/-- The queue of an inbound frame: CONTROL for a control kind byte, otherwise the class named (R4). -/
def inboundQueue (kindByte : Byte) (named : Queue) : Queue :=
  if 2 ≤ kindByte.toNat ∧ kindByte.toNat ≤ 5 then .control else named

/-! ### What becomes of a frame -/

/-- A frame of a tunnel has completed or been removed (R34). -/
def Device.uncount (d : Device) (t : Nat) : Device := d.modTunnel t fun x => { x with frameCount := x.frameCount - 1 }

/-- The end of a frame's reservation without a notice frees its place, which a waiting proof may use (R100, R144). -/
def Device.placeFreed (d : Device) (f : Frame) : Device := { d with buildDue := d.buildDue || f.reserved }

/-- An outbound frame that fails at take, or is removed, with this outcome (R110, R117, R118, R25, R26, R28). -/
def Device.failOutbound (d : Device) (f : Frame) (outcome : Result) : Device :=
  let d := (d.uncount f.tunnel).placeFreed f
  match f.party with
  | .trafficPort =>
    if f.orphan then d.freeCells f.cells
    else (d.passCells f.cells (.done .traffic)).answerDeferred .traffic f.tag 3 .done outcome (.cells f.cells)
  | .keyPort =>
    if f.orphan then d.freeCells f.cells
    else (d.passCells f.cells (.done .key)).answerDeferred .key f.tag 6 .done outcome (.cells f.cells)
  | .conditionMonitor => (d.freeCells f.cells).keepaliveEnded f.tunnel
  | .proofEngine =>
    match f.proof with
    | some (serial, _) => (d.freeCells f.cells).proofReport serial outcome
    | none => d.freeCells f.cells

/-- What an inbound outcome is counted as (R121), and which event it is (R116). -/
def inboundReport : Result → Option Counted × Option EventSource
  | .authFail => (some .authFail, some .authFail)
  | .replay => (some .replay, some .replay)
  | .epochMiss => (some .epochMiss, some .epochMiss)
  | .malformed => (some .malformed, some .malformed)
  | .notInService => (some .notInService, none)
  | .inboundHeld => (some .inboundHeld, none)
  | .keyUnusable => (some .keyUnusable, none)
  | _ => (none, none)

/-- An inbound outcome reported to the condition monitor and to the bank (R115). -/
def Device.reportInbound (d : Device) (t : Nat) (outcome : Result) : Device :=
  let d := match (inboundReport outcome).1 with
    | some k => d.countOutcome t k
    | none => d
  match (inboundReport outcome).2 with
  | some e => d.give e (some t)
  | none => d

/-- The response to a RECEIVE_FRAME, unless its port was reset (R28). -/
def Device.answerInbound (d : Device) (f : Frame) (outcome : Result) (body : Body) : Device :=
  if f.orphan then d else d.answerDeferred .traffic f.tag 4 .done outcome body

/-- An inbound frame that is rejected, or removed: its cells are freed (R27, R111, R112, R117). -/
def Device.failInbound (d : Device) (f : Frame) (outcome : Result) (body : Body) : Device :=
  (((d.uncount f.tunnel).freeCells f.cells).answerInbound f outcome body).reportInbound f.tunnel outcome

/-- The header values a response carries (R111, R112). -/
def Header.body (h : Header) : Body := .inbound h.kind h.epoch h.sequence

/-! ### Removal at close (R117, R41) -/

/-- A frame removed from its queue completes TUNNEL_CLOSED (R117). -/
def Device.closeFrame (d : Device) (f : Frame) : Device :=
  match f.flow with
  | .outbound _ => d.failOutbound f .tunnelClosed
  | .inbound _ => d.failInbound f .tunnelClosed (.cells f.cells)

/-- The exit test: an event that removed frames from SETTLE leaves it at or below the low mark (R104). -/
def Engine.exitTest (e : Engine) : Engine :=
  if e.settle.length ≤ e.marks.low then
    match e.mode with
    | .base .settleFirst => { e with mode := .base .normal }
    | .rescue .settleFirst n => { e with mode := .rescue .normal n }
    | .base .normal | .rescue .normal _ => e
  else e

/-- The empty-BULK test: a rescue ends in the event that leaves BULK empty (R105). -/
def Engine.emptyTest (e : Engine) : Engine :=
  match e.mode with
  | .rescue back _ => if e.bulk.isEmpty then { e with mode := .base back } else e
  | .base _ => e

/-- Every queued frame of a tunnel removed, with the tests made on what is left (R117). -/
def Device.removeFrames (d : Device) (t : Nat) : Device :=
  let mine (f : Frame) : Bool := decide (f.tunnel = t)
  let e := d.engine
  let gone := e.control.filter mine ++ e.settle.filter mine ++ e.bulk.filter mine
  let e' := { e with
    control := e.control.filter fun f => !mine f
    settle := e.settle.filter fun f => !mine f
    bulk := e.bulk.filter fun f => !mine f }
  let e' := if e.settle.any mine then e'.exitTest else e'
  let e' := if e.bulk.any mine then e'.emptyTest else e'
  gone.foldl Device.closeFrame { d with engine := e', buildDue := d.buildDue || e.control.any mine }

/-- The frame in work names a tunnel. -/
def Device.inWorkOf (d : Device) (t : Nat) : Bool := d.engine.inWork.any fun w => decide (w.frame.tunnel = t)

/-- The end of a closing, in the event at which no frame in work names the tunnel and no derivation is in flight
(R41).  A frame that it removes from CONTROL brings an attempt, as one removed by CLOSE_TUNNEL does (log 39). -/
def Device.endClosing (d : Device) (t : Nat) : Device :=
  let x := d.tunnel t
  if x.state = .closing ∧ ¬ x.inDerivation ∧ ¬ d.inWorkOf t then
    let d := (((d.removeFrames t).dropKey t .next).dropKey t .current).dropKey t .previous
    let d := d.modTunnel t fun x =>
      { x with
        state := .empty, shop := none, profile := none, outCauses := ⟨false, false, false⟩, inOps := false
        retryCount := 0, closeTag := none }
    match x.closeTag with
    | some tag => d.answerDeferred .operations tag 13 .done .none .empty
    | none => d
  else d

/-! ### Checks at take (R35, R76, R108, R111) -/

/-- The checks on an outbound frame, in order: the outcome of the first that fails (R108). -/
def Device.outboundCheck (d : Device) (t : Nat) (kind : FrameKind) : Option Result :=
  let x := d.tunnel t
  if ¬ (x.state = .inService ∨ (x.state = .isolated ∧ kind ≠ .data)) then
    some (if x.state = .closing then .tunnelClosed else .notInService)
  else if kind = .data ∧ ¬ x.outCauses.isEmpty then some .outboundHeld
  else if x.current.any fun c => decide (c.state = .active) && !c.key.retirePending then none
  else some .keyUnusable

/-- The inbound columns of R35. -/
def TunnelState.letsIn : TunnelState → FrameKind → Bool
  | .inService, _ => true
  | .isolated, k => decide (k ≠ .data)
  | .provisioned, k | .failed, k => decide (k = .dialogue)
  | .empty, _ | .closing, _ => false

/-- The epoch lookup: the slot selected, or the outcome (R76). -/
def Tunnel.lookup (x : Tunnel) (epoch : Nat) : Except Result Slot :=
  if x.current.any fun c => c.key.epoch == epoch then
    if x.current.any fun c => decide (c.state = .expired) then .error .keyUnusable else .ok .current
  else if x.previous.any fun k => k.epoch == epoch && !k.retirePending then .ok .previous
  else if x.next.any fun n => n.key.epoch == epoch && n.ready && !n.key.retirePending then .ok .next
  else .error .epochMiss

/-- The checks on an inbound frame, in order: the slot it selects, or the outcome of the first that fails and the
body of its response (R111). -/
def Device.inboundCheck (d : Device) (f : Frame) : Except (Result × Body) Slot :=
  let x := d.tunnel f.tunnel
  let h := f.header
  if ¬ h.wellFormed x.shop f.size then .error (.malformed, .empty)
  else
    match FrameKind.ofByte h.kind with
    | none => .error (.malformed, .empty)
    | some kind =>
      if ¬ x.state.letsIn kind then .error (.notInService, h.body)
      else if kind = .data ∧ x.inOps then .error (.inboundHeld, h.body)
      else
        match x.lookup h.epoch with
        | .ok s => .ok s
        | .error o => .error (o, h.body)

/-- The entry of the key in a slot. -/
def Tunnel.entryOf (x : Tunnel) (s : Slot) : Nat := ((x.key? s).map (·.entry)).getD 0

/-- The frame just taken from a queue enters work, or completes with the outcome of the check it fails (R102). -/
def Device.judgeFrame (d : Device) (q : Queue) (f : Frame) : Device :=
  let x := d.tunnel f.tunnel
  match f.flow with
  | .outbound kind =>
    match d.outboundCheck f.tunnel kind with
    | some outcome => d.failOutbound f outcome
    | none =>
      let sequence := ((x.key? .current).map (·.outCount)).getD 0 + 1
      { d.passCells f.cells .inWork with
        engine := { d.engine with inWork := some ⟨f, q, x.entryOf .current, sequence⟩ } }.bindOutbound f.tunnel
  | .inbound _ =>
    match d.inboundCheck f with
    | .error (outcome, body) => d.failInbound f outcome body
    | .ok s =>
      { d.passCells f.cells .inWork with
        engine := { d.engine with inWork := some ⟨f, q, x.entryOf s, 0⟩ } }.modTunnel f.tunnel
        (·.modKey s fun k => { k with bound := true })

/-! ### Choices (R102..R105) -/

/-- The turn after a turn (R103). -/
def Turn.next : Turn → Turn
  | .settle1 => .settle2
  | .settle2 => .settle3
  | .settle3 => .bulk
  | .bulk => .settle1

/-- The queue a turn names (R103). -/
def Turn.queue : Turn → Queue
  | .bulk => .bulk
  | .settle1 | .settle2 | .settle3 => .settle

/-- A queue, or the other of SETTLE and BULK where it is empty. -/
def Engine.orOther (e : Engine) : Queue → Queue
  | .settle => if e.settle.isEmpty then .bulk else .settle
  | .bulk => if e.bulk.isEmpty then .settle else .bulk
  | .control => .control

/-- The choice between SETTLE and BULK by the mode (R103, R104, R105). -/
def Engine.choice (e : Engine) : Queue :=
  match e.mode with
  | .base .normal => e.orOther e.turn.queue
  | .base .settleFirst => e.orOther .settle
  | .rescue _ _ => e.orOther .bulk

/-- The head of BULK has waited the rescue limit (R105). -/
def Device.bulkLate (d : Device) : Bool :=
  match d.engine.bulk with
  | f :: _ => decide (d.engine.marks.rescueLimit ≤ d.since f.queuedAt)
  | [] => false

/-- The rescue test (R105). -/
def Device.rescueTest (d : Device) : Device :=
  match d.engine.mode with
  | .base m =>
    if d.bulkLate then { d with engine := { d.engine with mode := .rescue m 0 } }.give .bulkRescueEntries none else d
  | .rescue _ _ => d

/-- The batch count after a bulk take, and the return at the rescue batch (R105). -/
def Engine.countBatch (e : Engine) : Engine :=
  match e.mode with
  | .rescue back n =>
    if e.marks.rescueBatch ≤ n + 1 then { e with mode := .base back } else { e with mode := .rescue back (n + 1) }
  | .base _ => e

/-- The engine after a take from SETTLE or BULK, made in this mode: the pointer moves at a NORMAL choice, and the
occupancy, batch and empty-BULK tests are made (R103..R105). -/
def Engine.afterTake (e : Engine) (q : Queue) : Engine :=
  let e := match e.mode with
    | .base .normal => { e with turn := e.turn.next }
    | .base .settleFirst | .rescue _ _ => e
  match q with
  | .settle => e.exitTest
  | .bulk => e.countBatch.emptyTest
  | .control => e

/-- One take: CONTROL's head, or the head that the rescue test and the mode choose (R102). -/
def Device.takeOne (d : Device) : Device :=
  match d.engine.control with
  | f :: rest => { d with engine := { d.engine with control := rest }, buildDue := true }.judgeFrame .control f
  | [] =>
    let d := d.rescueTest
    let q := d.engine.choice
    match d.engine.queue q with
    | f :: rest => { d with engine := (d.engine.setQueue q rest).afterTake q }.judgeFrame q f
    | [] => d

/-- Frames wait in a work queue. -/
def Engine.hasFrames (e : Engine) : Bool := !(e.control.isEmpty && e.settle.isEmpty && e.bulk.isEmpty)

/-- The work that an event leaves to be done in it: the attempt of a waiting proof that something was freed for (R144),
and then takes while the engine is IDLE and frames wait (R102; log 15).  The fuel bounds the number of takes and
attempts (log 35). -/
def settleFor : Nat → Device → Device
  | 0, d => d
  | n + 1, d =>
    if d.buildDue ∧ d.proofWaits then settleFor n d.buildAttempt
    else if d.engine.inWork = none ∧ d.engine.hasFrames then settleFor n d.takeOne
    else { d with buildDue := false }

/-- The fuel that suffices: each take removes a frame, each start of a proof takes a tunnel from the retry queue, and
an attempt is made at most once after each take (log 35). -/
def Device.settleFuel (d : Device) : Nat :=
  4 * (d.engine.control.length + d.engine.settle.length + d.engine.bulk.length + d.proofs.retry.length) + 8

/-- An event settled. -/
def Device.settle (d : Device) : Device := settleFor d.settleFuel d

/-- The end of an event that can move frames, cells, places or proofs, or raise key flags. -/
def Device.finish (d : Device) : Device := d.settle.offerFlags.closeEvent

/-! ### Completions (R109, R112, R113) -/

/-- The two direction keys of an entry (R51). -/
def KeyEntry.outbound : KeyEntry → BitVec 256
  | .keyed k _ => k
  | .free | .blank => 0

/-- The inbound direction key of an entry (R51). -/
def KeyEntry.inbound : KeyEntry → BitVec 256
  | .keyed _ k => k
  | .free | .blank => 0

/-- The header the part writes for an outbound frame (R2). -/
def Device.outboundHeader (d : Device) (f : Frame) (kind : FrameKind) (epoch sequence : Nat) : Header where
  format := 3
  kind := kind.byte
  epoch := epoch
  index := (f.proof.map (·.2)).getD 0
  direction := 1
  shop := ((d.tunnel f.tunnel).shop.map (·.toNat)).getD 0
  sequence := sequence
  length := f.size

/-- The wire frame of a payload under a direction key and a header (R6, R7). -/
def wireFrame (key : BitVec 256) (h : Header) (payload : List Byte) : List Byte :=
  let text := Config.suite.text key h.bytes payload
  h.bytes ++ text ++ Config.suite.tag key h.bytes text

/-- The wire frame of the payload submitted written into the frame's cells, the rest of each zero (R6). -/
def Device.layWire (d : Device) (f : Frame) (h : Header) (entry : Nat) : Device :=
  { d with store := d.store.lay f.cells (wireFrame (d.keys.entry entry).outbound h f.content) }

/-- A sent control frame handed to the traffic port in its reserved place, or its cells freed where the place was
lost (R100, R118). -/
def Device.handOver (d : Device) (f : Frame) (kind : FrameKind) (epoch sequence : Nat) (by_ : Producer) : Device :=
  if f.lost then d.freeCells f.cells
  else
    (d.passCells f.cells (.done .traffic)).pushNotice .traffic
      ⟨some f.tunnel, d.clock, .generated by_ kind epoch sequence (f.size + 32) f.cells⟩

/-- The announcement of a SENT completion by producer (R109, R118).  A DISCARDED response carries what a HANDED one does
(log 38). -/
def Device.announceSent (d : Device) (f : Frame) (kind : FrameKind) (epoch sequence : Nat) : Device :=
  match f.party with
  | .trafficPort =>
    if f.orphan then d.freeCells f.cells
    else
      (d.passCells f.cells (.done .traffic)).answerDeferred .traffic f.tag 3 .done .sent
        (.sent f.tunnel epoch sequence (f.size + 32) f.cells)
  | .keyPort =>
    if f.orphan then (d.freeCells f.cells).placeFreed f
    else
      (d.handOver f kind epoch sequence .key).answerDeferred .key f.tag 6 .done
        (if f.lost then .discarded else .handed) (.handed f.tunnel epoch sequence)
  | .conditionMonitor => (d.handOver f kind epoch sequence .part).keepaliveSent f.tunnel
  | .proofEngine =>
    let d := d.handOver f kind epoch sequence .part
    match f.proof with
    | some (serial, _) => d.proofReport serial .sent
    | none => d

/-- The outbound frame in work completes SENT (R109). -/
def Device.completeOutbound (d : Device) (w : InWork) (kind : FrameKind) : Device :=
  let f := w.frame
  let x := d.tunnel f.tunnel
  let epoch := (((x.slotOf w.entry).bind x.key?).map (·.epoch)).getD 0
  let d := d.layWire f (d.outboundHeader f kind epoch w.sequence) w.entry
  let d := { d with engine := { d.engine with inWork := none } }.releaseKey f.tunnel w.entry
  let d := (d.announceSent f kind epoch w.sequence).outboundSent f.tunnel
  (((d.give .framesSent (some f.tunnel)).uncount f.tunnel).endClosing f.tunnel)

/-- The parts of an inbound frame: header bytes, ciphertext and tag (R1, R6). -/
structure Wire where
  header : List Byte
  text   : List Byte
  tag    : List Byte
deriving DecidableEq, Repr

/-- The parts of an inbound frame as it was submitted (R1, R6, R23). -/
def Frame.wire (f : Frame) : Wire :=
  ⟨slice f.content 0 16, slice f.content 16 (f.size - 32), slice f.content (f.size - 16) 16⟩

/-- The frame verifies under a direction key: a holder of the key made it, and its header, ciphertext and tag are as
they were made (R7; log 4). -/
def Wire.verifies (w : Wire) (key : BitVec 256) : Bool :=
  match Config.suite.made w.tag with
  | some m =>
    decide (m.key = key ∧ m.header = w.header ∧ w.text = Config.suite.text m.key m.header m.payload
      ∧ w.tag = Config.suite.tag m.key m.header w.text)
  | none => false

/-- The deciphered payload: what the sender enciphered (R7). -/
def Wire.payload (w : Wire) : List Byte := ((Config.suite.made w.tag).map (·.payload)).getD []

/-- The end of an authenticated inbound frame by its kind (R112, R113, R114, R28, R118). -/
def Device.endAccepted (d : Device) (f : Frame) (h : Header) (payload : List Byte) : Device :=
  match FrameKind.ofByte h.kind with
  | some .keepalive => (d.freeCells f.cells).answerInbound f .consumed h.body
  | some .proofEcho =>
    ((d.handEcho f.tunnel h.index payload).freeCells f.cells).answerInbound f .consumed h.body
  | some .dialogue =>
    if f.orphan then d.freeCells f.cells
    else if d.dialogueRoom then
      (({ d with store := (d.store.lay f.cells payload).pass (.done .key) f.cells }.pushNotice .key
        ⟨some f.tunnel, d.clock, .dialogueIn .dialogue h.epoch h.sequence h.length f.cells⟩).answerInbound f .diverted
          h.body)
    else
      ((d.freeCells f.cells).answerInbound f .dialogueDropped h.body).give .dialoguesDropped (some f.tunnel)
  | some .data | some .proof | none =>
    if f.orphan then d.freeCells f.cells
    else
      { d with store := (d.store.lay f.cells payload).pass (.done .traffic) f.cells }.answerInbound f .accepted
        (.accepted h.kind h.epoch h.sequence h.length f.cells)

/-- The record a frame in work bound, in whichever slot it stands. -/
def Device.boundKey (d : Device) (w : InWork) : Option KeyRecord :=
  ((d.tunnel w.frame.tunnel).slotOf w.entry).bind (d.tunnel w.frame.tunnel).key?

/-- The judgement of the inbound frame in work: what happens but for the release of its key (R77, R112). -/
def Device.judgeInbound (d : Device) (w : InWork) : Device :=
  let f := w.frame
  let h := f.header
  let wire := f.wire
  let key := (d.keys.entry w.entry).inbound
  if ¬ wire.verifies key then d.failInbound f .authFail h.body
  else
    match (d.boundKey w).bind (·.judge h.sequence) with
    | none => d.failInbound f .replay h.body
    | some k =>
      let d := (d.modKeyOf f.tunnel w.entry fun _ => k).followTest f.tunnel w.entry
      let d := d.endAccepted f h wire.payload
      ((d.authenticated f.tunnel).give .framesAccepted (some f.tunnel)).uncount f.tunnel

/-- The inbound frame in work completes (R112). -/
def Device.completeInbound (d : Device) (w : InWork) : Device :=
  let t := w.frame.tunnel
  let d := d.judgeInbound w
  let d := { d with engine := { d.engine with inWork := none } }
  (d.releaseKey t w.entry).endClosing t

end Sys2Proof.Machine
end

