-- ==== Sys2Proof/Machine/Operands.lean ====
section
/-! DEFINITION. Request records, the catalogue and the operands of each request in the layout the model gives them
(R172, 11.7; log 1), and the ranges of settings (R47, R106, R71, R130, R153). -/

namespace Sys2Proof.Machine

/-! ### Records (R172) -/

/-- A request record: the fields of its header, and its 26 bytes of operands (R172). -/
structure Request where
  tag      : BitVec 16
  code     : Nat
  flags    : Nat
  tunnel   : Nat
  operands : List Byte
deriving DecidableEq, Repr

/-- The request that a record spells (R172). -/
def Request.ofRecord (bs : List Byte) : Request where
  tag := BitVec.ofNat 16 (beNat (slice bs 0 2))
  code := beNat (slice bs 2 1)
  flags := beNat (slice bs 3 1)
  tunnel := beNat (slice bs 4 2)
  operands := slice bs 6 26

/-- A number operand: `w` bytes at position `off` of the operands (log 1). -/
def Request.num (q : Request) (off w : Nat) : Nat := beNat (slice q.operands off w)

/-- A list of two-byte numbers, at most as many as the operands hold: its length in the byte at `off`, its members
after it (log 1). -/
def Request.numbers (q : Request) (off : Nat) : List Nat :=
  (List.range (min (q.num off 1) 16)).map fun i => q.num (off + 1 + 2 * i) 2

/-! ### The catalogue (11.7) -/

/-- What the catalogue gives for a request: the ports that accept it, the places it reserves, and whether it names a
tunnel. -/
structure CatalogueRow where
  ports       : List Port
  places      : Nat
  namesTunnel : Bool
deriving DecidableEq, Repr

/-- The request catalogue, but for PORT_RESET, which is never taken from a queue (11.7, R178). -/
def catalogue : Nat → Option CatalogueRow
  | 1 => some ⟨[.traffic, .key], 2, false⟩
  | 2 => some ⟨[.traffic, .key], 1, false⟩
  | 3 => some ⟨[.traffic], 1, true⟩
  | 4 => some ⟨[.traffic], 1, true⟩
  | 5 => some ⟨[.traffic], 1, true⟩
  | 6 => some ⟨[.key], 1, true⟩
  | 7 => some ⟨[.key], 1, true⟩
  | 8 => some ⟨[.key], 1, true⟩
  | 9 => some ⟨[.key], 4, true⟩
  | 10 => some ⟨[.key], 1, true⟩
  | 11 => some ⟨[.key], 1, true⟩
  | 12 => some ⟨[.operations], 1, true⟩
  | 13 => some ⟨[.operations], 1, true⟩
  | 14 => some ⟨[.operations], 1, true⟩
  | 15 => some ⟨[.operations], 2, true⟩
  | 16 => some ⟨[.operations], 1, false⟩
  | 17 => some ⟨[.operations], 2, false⟩
  | 18 => some ⟨[.operations], 2, false⟩
  | 19 => some ⟨[.operations], 1, true⟩
  | 20 => some ⟨[.operations], 4, true⟩
  | 21 => some ⟨[.operations], 2, false⟩
  | 22 => some ⟨[.operations], 1, true⟩
  | 23 => some ⟨[.operations], 1, false⟩
  | 24 => some ⟨[.operations], 1, true⟩
  | 25 => some ⟨[.operations], 1, false⟩
  | 26 => some ⟨[.operations], 4, false⟩
  | 27 => some ⟨[.operations], 1, false⟩
  | 28 => some ⟨[.operations], 1, false⟩
  | 29 => some ⟨[.operations], 1, false⟩
  | 30 => some ⟨[.operations], 1, false⟩
  | 31 => some ⟨[.operations], 8, false⟩
  | 32 => some ⟨[.operations], 1, false⟩
  | 33 => some ⟨[.operations], 0, false⟩
  | _ => none

/-- The request targets the device: DEVICE, bit 0 of the flags byte, on ACK_FAULT (R172, R173).  That bit 0 is the least
significant bit is the model's choice (log 42). -/
def Request.device (q : Request) : Bool := decide (q.code = 19 ∧ q.flags = 1)

/-- The common tests of a request whose code is in the catalogue, in order: the status of the first that fails
(R173). -/
def commonTests (p : Port) (row : CatalogueRow) (q : Request) : Option Status :=
  if p ∉ row.ports then some .wrongPort
  else if q.flags ≠ 0 ∧ ¬ q.device then some .badRequest
  else if row.namesTunnel ∧ ¬ q.device ∧ Config.tunnelCount ≤ q.tunnel then some .noTunnel
  else none

/-! ### Ranges -/

/-- A number lies in a range, both ends included. -/
def within (lo hi n : Nat) : Bool := decide (lo ≤ n) && decide (n ≤ hi)

/-- The ranges of the KEYS group (R47). -/
def Profile.keysOk (p : Profile) : Bool :=
  within 1 (2 ^ 40) p.softFrames && within p.softFrames (2 ^ 40) p.hardFrames && within 60 2592000 p.softAge
    && within p.softAge 2592000 p.hardAge && within 100 60000 p.grace

/-- The ranges of the CONDITION group (R47). -/
def Profile.conditionOk (p : Profile) : Bool :=
  within 0 300 p.keepalive && within 3 3600 p.silence && within 1 60 p.interval && within 0 65535 p.authThreshold
    && within 0 65535 p.replayThreshold && within 0 65535 p.epochThreshold && within 1 8 p.persistence

/-- The ranges of the FAULTS group but for the report set, to which TUNNEL_FAILED is added as it is stored
(R47, R48). -/
def Profile.faultsOk (p : Profile) : Bool := within 1 600 p.holdTime && within 0 7 p.retryLimit

/-- The ranges of the scheduler marks (R106). -/
def Marks.ok (m : Marks) : Bool :=
  within 2 384 m.high && decide (m.low < m.high) && within 100 100000 m.rescueLimit && within 1 64 m.rescueBatch

/-- The ranges of a pattern table entry (R153). -/
def Pattern.ok (p : Pattern) : Bool :=
  (decide (p.length = 0) || within 16 1472 p.length) && within 0 255 p.seed && within 0 255 p.step

/-- A pattern table has an active entry (R153). -/
def anyActive (ps : List Pattern) : Bool := ps.any fun p => decide (p.length ≠ 0)

/-- Every item of a settings image lies in its range (R181). -/
def Items.ok (x : Items) : Bool :=
  decide (x.profiles.length = Config.profileCount)
    && x.profiles.all (fun p => p.keysOk && p.conditionOk && p.faultsOk && p.report.tunnelFailed)
    && decide (x.patterns.length = 8) && x.patterns.all Pattern.ok && anyActive x.patterns
    && x.marks.ok && within 0 1024 x.lowMark

/-- The image passes its check (R181; log 11). -/
def Image.passes (i : Image) : Bool := i.checkMatch && i.items.ok

/-! ### Operands of each request (log 1) -/

/-- The class named by SEND_FRAME or RECEIVE_FRAME: SETTLE 0, BULK 1. -/
def classOf : Nat → Option Queue
  | 0 => some .settle
  | 1 => some .bulk
  | _ => none

/-- The bit of a number at a position. -/
def bitAt (n i : Nat) : Bool := n.testBit i

/-- A report set from its mask, bit i for kind i of 8.6; a higher bit is out of range (R48). -/
def reportOf (n : Nat) : Option ReportSet :=
  if n < 128 then
    some ⟨bitAt n 0, bitAt n 1, bitAt n 2, bitAt n 3, bitAt n 4, bitAt n 5, bitAt n 6⟩
  else none

/-- An action set from its mask; a bit above the four kinds that may be in it is refused (R48). -/
def actionOf (n : Nat) : Option ActionSet :=
  if n < 16 then some ⟨bitAt n 0, bitAt n 1, bitAt n 2, bitAt n 3⟩ else none

/-- A device report set from its mask, bit 0 for KEYSTORE_LOW up to bit 3 for SETTINGS_DEFAULTED (R183; log 1). -/
def deviceSetOf (n : Nat) : Option DeviceSet :=
  if n < 16 then some ⟨bitAt n 0, bitAt n 1, bitAt n 2, bitAt n 3⟩ else none

/-- An on or off operand: off 0, on 1 (log 1). -/
def switchOf : Nat → Option Bool
  | 0 => some false
  | 1 => some true
  | _ => none

/-- The group of a profile: KEYS 0, CONDITION 1, FAULTS 2. -/
def groupOf : Nat → Option ProfileGroup
  | 0 => some .keys
  | 1 => some .condition
  | 2 => some .faults
  | _ => none

/-- A profile with a group's fields replaced by the operands of a WRITE_PROFILE, none where the request is refused
BAD_REQUEST (R48). -/
def Profile.written (old : Profile) (g : ProfileGroup) (q : Request) : Option Profile :=
  match g with
  | .keys =>
    match switchOf (q.num 24 1) with
    | some follow =>
      let p := { old with
        softFrames := q.num 2 6, hardFrames := q.num 8 6, softAge := q.num 14 4, hardAge := q.num 18 4
        grace := q.num 22 2, followPeer := follow }
      if p.keysOk then some p else none
    | none => none
  | .condition =>
    let p := { old with
      keepalive := q.num 2 2, silence := q.num 4 2, interval := q.num 6 1, authThreshold := q.num 7 2
      replayThreshold := q.num 9 2, epochThreshold := q.num 11 2, persistence := q.num 13 1 }
    if p.conditionOk then some p else none
  | .faults =>
    match reportOf (q.num 2 1), actionOf (q.num 3 1) with
    | some r, some a =>
      let p := { old with
        report := { r with tunnelFailed := true }, action := a, holdTime := q.num 4 2, retryLimit := q.num 6 1 }
      if p.faultsOk then some p else none
    | _, _ => none

/-- A SET_HOLDS operand: LEAVE 0, SET 1, CLEAR 2 (R45). -/
inductive HoldOperand where
  | leave
  | set
  | clear
deriving DecidableEq, Repr

/-- The SET_HOLDS operand of a byte. -/
def holdOf : Nat → Option HoldOperand
  | 0 => some .leave
  | 1 => some .set
  | 2 => some .clear
  | _ => none

/-- A cause after a SET_HOLDS operand (R45). -/
def HoldOperand.apply : HoldOperand → Bool → Bool
  | .leave, b => b
  | .set, _ => true
  | .clear, _ => false

/-- A tunnel fault kind by its position in 8.6. -/
def tunnelKindOf (n : Nat) : Option TunnelFault := TunnelFault.all[n]?

/-- A device fault kind by its position in 8.6: 7 to 10. -/
def deviceKindOf (n : Nat) : Option DeviceFault := if n < 7 then none else DeviceFault.all[n - 7]?

/-- The event sources, in the order of 10.2. -/
def EventSource.all : List EventSource :=
  [.framesSent, .framesAccepted, .authFail, .replay, .epochMiss, .malformed, .dialoguesDropped, .keepalivesSent,
    .keepalivesSkipped, .promotions, .follows, .earlyRetires, .derivations, .claimsRefused, .settleFirstEntries,
    .bulkRescueEntries, .faultsLatched, .proofMisses, .strayEchoes]

/-- The level sources, in the order of 10.2. -/
def LevelSource.all : List LevelSource :=
  [.settleOccupancy, .bulkOccupancy, .freeCells, .freeKeyEntries, .engineBusy]

/-- A monitor source: NONE 0, then the sources of 10.2 in its order. -/
def sourceOf (n : Nat) : Option Source :=
  if n = 0 then some .none
  else if n ≤ 19 then EventSource.all[n - 1]?.map .event
  else LevelSource.all[n - 20]?.map .level

/-- A monitor filter: ALL 0, ONE 1, PROFILE 2, with its number. -/
def filterOf (kind number : Nat) : Option Filter :=
  match kind with
  | 0 => some .all
  | 1 => some (.one number)
  | 2 => some (.profile number)
  | _ => none

/-- A monitor mode. -/
def countModeOf : Nat → Option CountMode
  | 0 => some .count
  | 1 => some .duration
  | 2 => some .edge
  | _ => none

/-- A monitor compare. -/
def compareOf : Nat → Option Compare
  | 0 => some .atOrAbove
  | 1 => some .below
  | _ => none

/-- A proof mode: STOP_FIRST 0, CONTINUOUS 1. -/
def proofModeOf : Nat → Option ProofMode
  | 0 => some .stopFirst
  | 1 => some .continuous
  | _ => none

/-- The device settings of a SAVE_SETTINGS: those in use with KEEP, those given with REPLACE; none where the request
is refused BAD_REQUEST (R183). -/
def Request.savedSettings (q : Request) (marks : Marks) (lowMark : Nat) (report : DeviceSet) :
    Option (Marks × Nat × DeviceSet) :=
  match q.num 0 1 with
  | 0 => some (marks, lowMark, report)
  | 1 =>
    let m : Marks := ⟨q.num 1 2, q.num 3 2, q.num 5 4, q.num 9 1⟩
    match deviceSetOf (q.num 12 1) with
    | some s => if m.ok ∧ within 0 1024 (q.num 10 2) then some (m, q.num 10 2, s) else none
    | none => none
  | _ => none

end Sys2Proof.Machine
end

