-- ==== Sys2Proof/WellFormed.lean ====
section
/-! DEFINITION. Which commands name an access the bus can make and a tunnel the part has. -/

namespace Sys2Proof

/-- An offset of one aligned four-byte word of a port window, 00000h..FFFFCh (R171). -/
def aligned (off : Nat) : Bool := off % 4 == 0 && decide (off < 0x100000)

/-- The offset lies in the cell window of the port: 80000h..FFFFFh on the traffic and key ports (R171). -/
def inCellWindow (p : Port) (off : Nat) : Bool := p != .operations && decide (0x80000 ≤ off)

/-- The offset lies in an area that a read of the response row covers: the request area, which reads zeros, the
response area, or an offset outside the areas of R171's table. -/
def readsHere (p : Port) (off : Nat) : Bool :=
  decide (off < 0x040) || (decide (0x064 ≤ off) && !inCellWindow p off)

/-- Each command names an access of its own row and a tunnel of 0..479 (R32). -/
def Instr.wellFormed : Instr → Bool
  | .portWindowWrite p off _ => aligned off && off != 0x01C && !inCellWindow p off
  | .responseRead p off => aligned off && readsHere p off
  | .noticeRead _ off => aligned off && decide (0x040 ≤ off) && decide (off < 0x060)
  | .cellWindowAccess _ off _ => aligned off && decide (0x80000 ≤ off)
  | .graceExpiry t | .softAgeExpiry t | .hardAgeExpiry t | .intervalExpiry t => decide (t < 480)
  | .silenceExpiry t | .keepaliveExpiry t | .holdExpiry t => decide (t < 480)
  | .powerOnReset | .loadComplete | .saveComplete | .deviceClockAdvance => true
  | .requestPost _ _ | .statusRead _ | .portReset _ _ => true
  | .claimCells _ | .releaseCells _ | .sendFrame _ | .receiveFrame _ | .readService _ => true
  | .sendDialogue _ | .installKey _ | .discardNext _ | .readSlots _ | .promote _ => true
  | .retirePrevious _ | .openTunnel _ | .closeTunnel _ | .setHolds _ | .readTunnel _ => true
  | .writeProfile _ | .readProfile _ | .readEngine _ | .ackFault _ | .readCondition _ => true
  | .readDeviceFaults _ | .startProof _ | .stopProof _ | .restoreTunnel _ | .writePattern _ => true
  | .readProof _ | .setMonitor _ | .freezeMonitors _ | .thawMonitors _ | .clearMonitors _ => true
  | .readMonitors _ | .saveSettings _ | .deviceRestart _ | .unknownRequestCode _ => true
  | .derivationComplete | .outboundCompletion | .inboundCompletion => true
  | .echoDeadlineExpiry | .retryStart | .proofBuildAttempt => true

end Sys2Proof
end

