-- ==== Sys2Proof/Machine/Ports.lean ====
section
/-! DEFINITION. The port controllers: the window, posting, taking a request, and port reset (R22, R171..R179). -/

namespace Sys2Proof.Machine

/-! ### Taking a request (R173, R174, R175) -/

/-- What a response says: its status, its outcome and its body. -/
structure Reply where
  status : Status
  result : Result
  body   : Body
deriving DecidableEq, Repr

/-- A reply of status DONE without an outcome. -/
def Reply.done (body : Body) : Reply := ⟨.done, .none, body⟩

/-- What a request's own tests and effects come to. -/
inductive Taken where
  /-- refused, with nothing changed -/
  | refuse (status : Status)
  /-- answered at once; nothing has changed that another block acts on in the event -/
  | quiet (d : Device) (reply : Reply)
  /-- answered at once; the event is then settled -/
  | answer (d : Device) (reply : Reply)
  /-- its response is deferred; the event is settled -/
  | wait (d : Device)

/-- The number of records of a response that holds `places` places (R175; log 2). -/
def recordsFor (places : Nat) : Body → Nat
  | .empty => 1
  | .headroom _ => 1
  | .cells ns => if ns.length ≤ 13 then 1 else 2
  | body => recordsOf places body

/-- The response to a taken request queued in its places, the rest of them released (R173, R175). -/
def Device.reply (d : Device) (p : Port) (q : Request) (places : Nat) (r : Reply) : Device :=
  d.queueResponse p places ⟨q.tag, q.code, r.status, r.result, r.body⟩ (recordsFor places r.body)

/-- A response place count can be reserved (R173). -/
def PortState.canReserve (x : PortState) (places : Nat) : Bool :=
  decide (x.responses.length + x.reserved + places ≤ Config.responsePlaces)

/-- The request at the head of a queue leaves it, with its places reserved (R173). -/
def Device.popRequest (d : Device) (p : Port) (places : Nat) : Device :=
  d.modPort p fun x => { x with requests := x.requests.tail, reserved := x.reserved + places }

/-- The head of a port's queue, where the port is READY. -/
def Device.headRequest (d : Device) (p : Port) : Option Request :=
  if (d.port p).ready then (d.port p).requests.head?.map Request.ofRecord else none

/-- The request that a taking of this code takes: the head of the queue has the code, the port is READY and the
places can be reserved (R173). -/
def Device.takeable (d : Device) (p : Port) (code places : Nat) : Option Request :=
  match d.headRequest p with
  | some q => if q.code = code ∧ (d.port p).canReserve places then some q else none
  | none => none

/-- The end of a taking, by what the request's own part came to. -/
def Device.conclude (d : Device) (p : Port) (q : Request) (places : Nat) : Taken → Device
  | .refuse st => d.reply p q places ⟨st, .none, .empty⟩
  | .quiet d r => d.reply p q places r
  | .answer d r => (d.reply p q places r).finish
  | .wait d => d.finish

/-- The taking of the request at the head of a port's queue: the places reserved, the common tests made, then the
request's own part (R173).  Where no such request can be taken the event cannot occur (log 6). -/
def Device.takeRequest (d : Device) (p : Port) (code : Nat) (own : Device → Request → Taken) : Device :=
  match catalogue code with
  | none => d
  | some row =>
    match d.takeable p code row.places with
    | none => d
    | some q =>
      let d := d.popRequest p row.places
      match commonTests p row q with
      | some st => d.conclude p q row.places (.refuse st)
      | none => d.conclude p q row.places (own d q)

/-- The taking of a request whose code is not in the catalogue: refused BAD_REQUEST in one place (R173; log 22). -/
def Device.takeUnknown (d : Device) (p : Port) : Device :=
  match d.headRequest p with
  | some q =>
    if catalogue q.code = none ∧ (d.port p).canReserve 1 then
      (d.popRequest p 1).conclude p q 1 (.refuse .badRequest)
    else d
  | none => d

/-! ### Reads of the window (R171, R175, R176, R177) -/

/-- The part with the word that a read of a port's window returned (log 12). -/
def Device.returnWord (d : Device) (p : Port) (w : BusWord) : Device := d.modPort p fun x => { x with bus := w }

/-- The bytes that the response area shows (R175). -/
def PortState.responseArea (x : PortState) : List Byte :=
  match x.responses with
  | r :: _ => r.bytes
  | [] => List.replicate 32 0

/-- The bytes that the notice area shows (R177). -/
def PortState.noticeArea (x : PortState) : List Byte :=
  match x.notices with
  | n :: _ => n.bytes
  | [] => List.replicate 32 0

/-- A read of a word of the response area; the word at 03Ch removes the head record (R175). -/
def Device.readResponse (d : Device) (p : Port) (off : Nat) : Device :=
  let x := d.port p
  let d := d.returnWord p (wordOf (slice x.responseArea (off - 0x20) 4))
  if off = 0x3C then d.modPort p fun x => { x with responses := x.responses.tail } else d

/-- What the removal of a notice by its master brings about on each port (R177). -/
def Device.noticeWasRead (d : Device) : Port → Device
  | .traffic => { d with buildDue := true }.finish
  | .key => (d.keyFlagScan 1).finish
  | .operations => ((d.faultScan 1).retryStartTest).finish

/-- A read of a word of the notice area; the word at 05Ch removes the head notice (R177). -/
def Device.readNotice (d : Device) (p : Port) (off : Nat) : Device :=
  let x := d.port p
  let d := d.returnWord p (wordOf (slice x.noticeArea (off - 0x40) 4))
  if off = 0x5C ∧ x.notices ≠ [] then
    (d.modPort p fun x => { x with notices := x.notices.tail }).noticeWasRead p
  else d

/-- A read of the status word: the fields as they stand, then three latches clear (R176). -/
def Device.readStatus (d : Device) (p : Port) : Device :=
  (d.returnWord p (d.port p).statusWord).modPort p fun x =>
    { x with restarted := false, overrun := false, accessFault := false }

/-! ### Port reset (R178, R179) -/

/-- The frame was submitted by this port (R94). -/
def Frame.submittedBy (f : Frame) (p : Port) : Bool :=
  decide (f.party = .trafficPort ∧ p = .traffic) || decide (f.party = .keyPort ∧ p = .key)

/-- A frame of a port marked at its reset: orphaned if the port submitted it, its announcement lost at a traffic port
reset if a GENERATED place was reserved for it (R96). -/
def Frame.marked (f : Frame) (p : Port) : Frame :=
  let loses := decide (p = .traffic) && f.reserved
  { f with orphan := f.orphan || f.submittedBy p, reserved := f.reserved && !loses, lost := f.lost || loses }

/-- The engine after a port reset (R96). -/
def Engine.marked (e : Engine) (p : Port) : Engine :=
  { e with
    control := e.control.map (·.marked p)
    settle := e.settle.map (·.marked p)
    bulk := e.bulk.map (·.marked p)
    inWork := e.inWork.map fun w => { w with frame := w.frame.marked p } }

/-- The port controller after its reset, with READY and RESTARTED as they stood (R178). -/
def PortState.emptied (x : PortState) : PortState :=
  { x with
    buffer := List.replicate 32 0, requests := [], responses := [], reserved := 0, notices := []
    overrun := false, accessFault := false }

/-- The cells that a port reset frees (R29). -/
def Device.cellsOfPort (d : Device) (p : Port) : List Nat :=
  match ownerOf p with
  | some o => d.store.ownedBy o
  | none => []

/-- A derivation job that owes no response (R53). -/
def Job.giveUp (j : Job) : Job := { j with owed := none }

/-- A save that owes no response (R183). -/
def Save.giveUp (s : Save) : Save := { s with owed := none }

/-- The effects of a port reset in the other blocks, but for the offers to the emptied notice queue (R179). -/
def Device.resetEffects (d : Device) (p : Port) : Device :=
  match p with
  | .traffic => ({ d with engine := d.engine.marked .traffic } : Device).freeCells (d.cellsOfPort .traffic)
  | .key =>
    let d := { d with engine := d.engine.marked .key }.freeCells (d.cellsOfPort .key)
    let d := { d with keys := { d.keys with jobs := d.keys.jobs.map Job.giveUp } }
    d.modTunnels fun x =>
      [Slot.next, .current, .previous].foldl (fun x s => x.modKey s KeyRecord.untold) x
  | .operations =>
    let d := { d with
      faults := d.faults.mapAll Latch.unreport
      saving := d.saving.map Save.giveUp }
    d.modTunnels fun x =>
      { x with closeTag := none }.modCondition fun c => { c with latches := c.latches.mapAll Latch.unreport }

/-- The offers to the emptied notice queue of the operations port: each takes a place while places remain (R134).  The
proof engine and the retry queue stand, so no retry start test is made (R141, R142, R179; log 41).  The key flags are
offered at the event's end with those that the event itself raises, all in scan order (R53, R91, R92). -/
def Device.resetOffers (d : Device) (p : Port) : Device :=
  match p with
  | .traffic | .key => d
  | .operations => d.faultScan (noticePlaces .operations)

/-- Notices stand in the traffic port's notice queue, or places of it are reserved: a traffic port reset frees a place
of it (R100, R144). -/
def Device.trafficPlaces (d : Device) : Bool := !d.traffic.notices.isEmpty || decide (0 < d.generatedReserved)

/-- A PORT_RESET with its tag: its six effects, then its response (R178). -/
def Device.portReset (d : Device) (p : Port) (tag : BitVec 16) : Device :=
  let requests := (d.port p).requests.length
  let cells := (d.cellsOfPort p).length
  let freed := decide (p = .traffic) && d.trafficPlaces
  let d := (({ d with buildDue := d.buildDue || freed }.modPort p PortState.emptied).resetEffects p).resetOffers p
  (d.queueResponse p 0 ⟨tag, 34, .done, .none, .portReset requests cells⟩ 1).finish

/-! ### Posting (R172) -/

/-- An assembly buffer with a word written at an offset (R172). -/
def bufferWith (buffer : List Byte) (off : Nat) (w : BusWord) : List Byte :=
  buffer.take off ++ beBytes 4 w.toNat ++ buffer.drop (off + 4)

/-- A record posted: to the tail of the request queue, or discarded where the queue is full, and the buffer zeroed; a
record whose code is PORT_RESET is that reset (R172, R178). -/
def Device.post (d : Device) (p : Port) (w : BusWord) : Device :=
  let record := bufferWith (d.port p).buffer 0x1C w
  let q := Request.ofRecord record
  if q.code = 34 then d.portReset p q.tag
  else
    d.modPort p fun x =>
      if x.requests.length < Config.requestPlaces then
        { x with buffer := List.replicate 32 0, requests := x.requests ++ [record] }
      else { x with buffer := List.replicate 32 0, overrun := true }

/-! ### Results -/

/-- A bus access: it exists only at an aligned offset inside the port window (R171). -/
def access (off : Nat) (s : State) (f : Device → Device) : Host.Outcome State Fault Refusal :=
  if 0x100000 ≤ off then .fault .outsideWindow
  else if off % 4 ≠ 0 then .fault .unalignedAccess
  else .next { s with dev := f s.dev }

/-- An event: the part changes, the queue of commands stays. -/
def event (s : State) (f : Device → Device) : Host.Outcome State Fault Refusal := .next { s with dev := f s.dev }

end Sys2Proof.Machine
end

