-- ==== Sys2Proof/Machine/CellRequests.lean ====
section
/-! DEFINITION. CLAIM_CELLS, RELEASE_CELLS, and the tests of cells named by frame requests (R17, R18, R24). -/

namespace Sys2Proof.Machine

/-- No number stands twice in a list. -/
def distinct : List Nat → Bool
  | [] => true
  | n :: ns => !ns.contains n && distinct ns

/-- A list of cells a request may name: as many as it says, within the bounds, in range, none twice (R18, R24). -/
def cellsNamed (count most : Nat) (cells : List Nat) : Bool :=
  within 1 most count && cells.all (fun n => decide (n < Config.cellCount)) && distinct cells

/-- The pool and the owner of a port's claims (R16, R17). -/
def claimAs : Port → Pool × Owner
  | .traffic => (.regular, .traffic)
  | .key => (.reserved, .key)
  | .operations => (.regular, .traffic)

/-- CLAIM_CELLS after the common tests (R17). -/
def Device.claim (p : Port) (d : Device) (q : Request) : Taken :=
  let n := q.num 0 1
  let (pool, owner) := claimAs p
  if ¬ within 1 16 n then .refuse .badRequest
  else if d.store.hasRoom pool n then
    let cells := d.store.lowestFree n
    .answer { d with store := d.store.take pool (.claimed owner) cells } (.done (.cells cells))
  else .answer (d.give .claimsRefused none) ⟨.noCells, .none, .headroom (pool.limit - d.store.charged pool)⟩

/-- RELEASE_CELLS after the common tests (R18). -/
def Device.release (p : Port) (d : Device) (q : Request) : Taken :=
  let cells := q.numbers 0
  if ¬ cellsNamed (q.num 0 1) 12 cells then .refuse .badRequest
  else if ¬ cells.all (d.store.touchable p) then .refuse .notOwner
  else .answer (d.freeCells cells) (.done .empty)

/-- CLAIM_CELLS. -/
def execClaimCells (p : Port) (s : State) : Host.Outcome State Fault Refusal :=
  event s fun d => d.takeRequest p 1 (Device.claim p)

/-- RELEASE_CELLS. -/
def execReleaseCells (p : Port) (s : State) : Host.Outcome State Fault Refusal :=
  event s fun d => d.takeRequest p 2 (Device.release p)

end Sys2Proof.Machine
end

