-- ==== Sys2Proof/Machine/Completions.lean ====
section
/-! DEFINITION. The completions of derivation jobs and of the frame in work (R62, R63, R109, R112). -/

namespace Sys2Proof.Machine

/-- A derivation job that completes on a tunnel that is not CLOSING (R62). -/
def Device.deriveKeys (d : Device) (j : Job) : Device :=
  let shop := (d.tunnel j.tunnel).shop.getD 0
  let d := d.setEntry j.entry
    (.keyed (Config.suite.key .outbound j.secret shop j.epoch) (Config.suite.key .inbound j.secret shop j.epoch))
  let d := d.modTunnel j.tunnel fun x =>
    { x with next := x.next.map fun n => { n with ready := true }, inDerivation := false }
  let d := match j.owed with
    | some tag => d.answerDeferred .key tag 7 .done .none (.installed j.tunnel j.epoch j.entry)
    | none => d
  d.give .derivations (some j.tunnel)

/-- A derivation job that completes on a CLOSING tunnel (R63). -/
def Device.abandonKeys (d : Device) (j : Job) : Device :=
  let d := (d.setEntry j.entry .free).modTunnel j.tunnel fun x => { x with next := none, inDerivation := false }
  let d := match j.owed with
    | some tag => d.answerDeferred .key tag 7 .tunnelClosed .none .empty
    | none => d
  d.endClosing j.tunnel

/-- The completion of the job in progress (R61); with no job the event cannot occur (log 6). -/
def Device.completeJob (d : Device) : Device :=
  match d.keys.jobs with
  | [] => d
  | j :: rest =>
    let d := { d with keys := { d.keys with jobs := rest } }
    (if (d.tunnel j.tunnel).state = .closing then d.abandonKeys j else d.deriveKeys j).finish

/-- The outbound frame in work completes; with none the event cannot occur (R109; log 6). -/
def Device.outboundEnds (d : Device) : Device :=
  match d.engine.inWork with
  | some w =>
    match w.frame.flow with
    | .outbound kind => (d.completeOutbound w kind).finish
    | .inbound _ => d
  | none => d

/-- The notices of a queue with the one at a place put behind the others. -/
def noticeLast (ns : List Notice) (place : Nat) : List Notice :=
  ns.take place ++ ns.drop (place + 1) ++ ns[place]?.toList

/-- The end of the event in which an inbound frame completed: where the frame followed, the key notices of the event
stand before its DIALOGUE_IN, if it brought one, since the follow offers KEY_FOLLOWED before the frame completes (R80,
R91; log 15).  `before` is the number of the key port's notices before the event. -/
def Device.finishInbound (d : Device) (before : Nat) : Device :=
  if before < d.key.notices.length ∧ d.waitingFlags ≠ [] then
    d.finish.modPort .key fun x => { x with notices := noticeLast x.notices before }
  else d.finish

/-- The inbound frame in work completes; with none the event cannot occur (R112; log 6). -/
def Device.inboundEnds (d : Device) : Device :=
  match d.engine.inWork with
  | some w =>
    match w.frame.flow with
    | .inbound _ => (d.completeInbound w).finishInbound d.key.notices.length
    | .outbound _ => d
  | none => d

/-- DERIVATION_COMPLETE. -/
def execDerivationComplete (s : State) : Host.Outcome State Fault Refusal := event s Device.completeJob

/-- OUTBOUND_COMPLETION. -/
def execOutboundCompletion (s : State) : Host.Outcome State Fault Refusal := event s Device.outboundEnds

/-- INBOUND_COMPLETION. -/
def execInboundCompletion (s : State) : Host.Outcome State Fault Refusal := event s Device.inboundEnds

end Sys2Proof.Machine
end

