-- ==== Sys2Proof/Machine/Expiries.lean ====
section
/-! DEFINITION. The expiries of deadlines and the advance of the device clock (R85, R86, R89, R122, R124, R126,
R140, R147, R160, R163, R185). -/

namespace Sys2Proof.Machine

/-! Each expiry occurs where its deadline is present and the clock stands at its value: the clock advance makes it as it
brings the clock there (R185).  Elsewhere the event cannot occur (logs 6 and 7). -/

/-- The grace deadline of a tunnel's PREVIOUS key (R89). -/
def Device.graceEnds (d : Device) (t : Nat) : Device :=
  if d.due ((d.tunnel t).previous.bind (·.graceDeadline)) then
    ((d.modTunnel t (·.modKey .previous fun k => { k with graceDeadline := none })).retireKey t .previous).finish
  else d

/-- The soft age deadline of a tunnel's CURRENT key (R85). -/
def Device.softAgeEnds (d : Device) (t : Nat) : Device :=
  if d.due ((d.tunnel t).current.bind (·.key.softDeadline)) then (d.softAge t).finish else d

/-- The hard age deadline of a tunnel's CURRENT key (R86). -/
def Device.hardAgeEnds (d : Device) (t : Nat) : Device :=
  if d.due ((d.tunnel t).current.bind (·.key.hardDeadline)) then (d.hardAge t).finish else d

/-- The interval deadline of a tunnel (R122). -/
def Device.intervalExpires (d : Device) (t : Nat) : Device :=
  if d.due (d.tunnel t).condition.intervalDeadline then (d.intervalEnds t).finish else d

/-- The silence deadline of a tunnel (R124). -/
def Device.silenceExpires (d : Device) (t : Nat) : Device :=
  if d.due (d.tunnel t).condition.silenceDeadline then (d.silenceEnds t).finish else d

/-- The keepalive deadline of a tunnel (R126). -/
def Device.keepaliveExpires (d : Device) (t : Nat) : Device :=
  if d.due (d.tunnel t).condition.keepaliveDeadline then (d.keepaliveEnds t).finish else d

/-- The hold deadline of a tunnel: it joins the retry queue (R140). -/
def Device.holdExpires (d : Device) (t : Nat) : Device :=
  if d.due (d.tunnel t).holdDeadline then
    ((d.modTunnel t fun x => { x with holdDeadline := none }).joinRetry t).finish
  else d

/-- The echo deadline: a miss of kind TIMEOUT (R147). -/
def Device.echoExpires (d : Device) : Device :=
  match d.proofs.running with
  | some r =>
    match r.phase with
    | .awaitEcho serial at_ => if d.due (some at_) then (d.proofMiss r serial .timeout none).finish else d
    | .waitCell | .inFlight _ => d
  | none => d

/-- The expiry of a deadline. -/
def Device.expire (d : Device) : Due → Device
  | .grace t => d.graceEnds t
  | .softAge t => d.softAgeEnds t
  | .hardAge t => d.hardAgeEnds t
  | .interval t => d.intervalExpires t
  | .silence t => d.silenceExpires t
  | .keepalive t => d.keepaliveExpires t
  | .hold t => d.holdExpires t
  | .echo => d.echoExpires

/-- A tunnel's deadlines that have come, in the order of Due. -/
def Device.dueOf (d : Device) (t : Nat) : List Due :=
  let x := d.tunnel t
  (if d.due (x.previous.bind (·.graceDeadline)) then [.grace t] else [])
    ++ (if d.due (x.current.bind (·.key.softDeadline)) then [.softAge t] else [])
    ++ (if d.due (x.current.bind (·.key.hardDeadline)) then [.hardAge t] else [])
    ++ (if d.due x.condition.intervalDeadline then [.interval t] else [])
    ++ (if d.due x.condition.silenceDeadline then [.silence t] else [])
    ++ (if d.due x.condition.keepaliveDeadline then [.keepalive t] else [])
    ++ (if d.due x.holdDeadline then [.hold t] else [])

/-- The echo deadline, where it has come. -/
def Device.dueEcho (d : Device) : List Due :=
  match d.proofs.running with
  | some r =>
    match r.phase with
    | .awaitEcho _ at_ => if d.due (some at_) then [.echo] else []
    | .waitCell | .inFlight _ => []
  | none => []

/-- Every deadline of the clock's value. -/
def Device.dueNow (d : Device) : List Due := (List.range Config.tunnelCount).flatMap d.dueOf ++ d.dueEcho

/-- A deadline put in its place by its rank at a draw. -/
def insertDue (draw : Nat) (x : Due) : List Due → List Due
  | [] => [x]
  | y :: ys =>
    if Config.expiryRank draw x < Config.expiryRank draw y then x :: y :: ys else y :: insertDue draw x ys

/-- Deadlines in the order of a draw (log 7). -/
def sortDue (draw : Nat) (xs : List Due) : List Due := xs.foldr (insertDue draw) []

/-- The expiries of the deadlines of the clock's value, each an event of its own, in an order that the spec leaves open
(R185; log 7). -/
def Device.expireDue (d : Device) : Device :=
  match d.dueNow with
  | [] => d
  | xs => (sortDue d.draws xs).foldl Device.expire { d with draws := d.draws + 1 }

/-- The advance of the device clock by one microsecond: the bank's elapsed and DURATION counters on the levels before
it, the clock, and a freeze on overflow; then the deadlines to whose value the clock has come expire (R160, R163, R166,
R185; log 7). -/
def Device.advanceClock (d : Device) : Device :=
  let d := d.countMicrosecond
  { d with clock := d.clock + 1 }.freezeOnOverflow.expireDue

/-- DEVICE_CLOCK_ADVANCE. -/
def execDeviceClockAdvance (s : State) : Host.Outcome State Fault Refusal := event s Device.advanceClock

/-- GRACE_EXPIRY. -/
def execGraceExpiry (t : Nat) (s : State) : Host.Outcome State Fault Refusal := event s fun d => d.graceEnds t

/-- SOFT_AGE_EXPIRY. -/
def execSoftAgeExpiry (t : Nat) (s : State) : Host.Outcome State Fault Refusal := event s fun d => d.softAgeEnds t

/-- HARD_AGE_EXPIRY. -/
def execHardAgeExpiry (t : Nat) (s : State) : Host.Outcome State Fault Refusal := event s fun d => d.hardAgeEnds t

/-- INTERVAL_EXPIRY. -/
def execIntervalExpiry (t : Nat) (s : State) : Host.Outcome State Fault Refusal := event s fun d => d.intervalExpires t

/-- SILENCE_EXPIRY. -/
def execSilenceExpiry (t : Nat) (s : State) : Host.Outcome State Fault Refusal := event s fun d => d.silenceExpires t

/-- KEEPALIVE_EXPIRY. -/
def execKeepaliveExpiry (t : Nat) (s : State) : Host.Outcome State Fault Refusal :=
  event s fun d => d.keepaliveExpires t

/-- HOLD_EXPIRY. -/
def execHoldExpiry (t : Nat) (s : State) : Host.Outcome State Fault Refusal := event s fun d => d.holdExpires t

/-- ECHO_DEADLINE_EXPIRY. -/
def execEchoDeadlineExpiry (s : State) : Host.Outcome State Fault Refusal := event s Device.echoExpires

end Sys2Proof.Machine
end

