-- ==== Sys2Proof/Machine/KeyRequests.lean ====
section
/-! DEFINITION. INSTALL_KEY, DISCARD_NEXT, PROMOTE and RETIRE_PREVIOUS (R57..R59, R66, R71, R72, R90). -/

namespace Sys2Proof.Machine

/-- A tunnel that is neither EMPTY nor CLOSING: PROVISIONED, IN_SERVICE, ISOLATED or FAILED (R57, R66, R90). -/
def TunnelState.live : TunnelState → Bool
  | .provisioned | .inService | .isolated | .failed => true
  | .empty | .closing => false

/-- The cell passes check 2 of R57: CLAIMED, owned by the key port and charged to the reserved pool. -/
def CellStore.secretCell (c : CellStore) (n : Nat) : Bool :=
  decide (c.cell n = ⟨.claimed .key, some .reserved⟩)

/-- The slot of a tunnel holds this epoch. -/
def Tunnel.holdsEpoch (x : Tunnel) (s : Slot) (epoch : Nat) : Bool := (x.key? s).any fun k => k.epoch == epoch

/-- Checks 3 to 6 of an installation, in order (R57). -/
def Device.installRefusal (d : Device) (t epoch : Nat) : Option Status :=
  let x := d.tunnel t
  if x.next.isSome then some .slotBusy
  else if ¬ within 1 255 epoch ∨ x.holdsEpoch .current epoch ∨ x.holdsEpoch .previous epoch then some .epochConflict
  else if d.keys.lowestFree = none then some .keystoreFull
  else if Config.jobPlaces ≤ d.keys.jobs.length then some .deriveFull
  else none

/-- A key record at installation (R55). -/
def KeyRecord.installed (epoch entry : Nat) : KeyRecord where
  epoch := epoch
  entry := entry
  outCount := 0
  ageStart := none
  softDeadline := none
  hardDeadline := none
  highest := 0
  accepted := []
  renewal := .no
  expired := .no
  followed := .no
  graceDeadline := none
  bound := false
  retirePending := false

/-- KEYSTORE_LOW at an accepted installation: a crossing from at or above the low mark to below it (R71). -/
def Device.lowMarkTest (d : Device) (before : Nat) : Device :=
  let now := d.keys.freeCount
  if d.keys.lowMark ≤ before ∧ now < d.keys.lowMark then d.deviceFault .keystoreLow now else d

/-- An installation accepted, the secret having been read from the cell: entry, record, flag and job (R59). -/
def Device.acceptInstall (d : Device) (q : Request) (epoch entry : Nat) (secret : BitVec 256) : Device :=
  let before := d.keys.freeCount
  let d := (d.setEntry entry .blank).lowMarkTest before
  let d := d.modTunnel q.tunnel fun x =>
    { x with next := some ⟨false, KeyRecord.installed epoch entry⟩, inDerivation := true }
  { d with keys := { d.keys with jobs := d.keys.jobs ++ [⟨q.tunnel, epoch, entry, secret, some q.tag⟩] } }

/-- The secret in bytes 0..31 of a cell (R30). -/
def Device.secretIn (d : Device) (cell : Nat) : BitVec 256 := BitVec.ofNat 256 (beNat (d.store.readSeq [cell] 0 32))

/-- INSTALL_KEY after the common tests: the cell that passes check 2 is wiped and made FREE whatever the response
(R57, R58, R59). -/
def Device.installKey (d : Device) (q : Request) : Taken :=
  let epoch := q.num 0 1
  let cell := q.num 1 2
  let refused (st : Status) : Reply := ⟨st, .none, .empty⟩
  if Config.cellCount ≤ cell then .refuse .badRequest
  else if ¬ d.store.secretCell cell then
    .refuse (if (d.tunnel q.tunnel).state.live then .notOwner else .wrongState)
  else
    let secret := d.secretIn cell
    let d := d.freeCells [cell]
    if ¬ (d.tunnel q.tunnel).state.live then .answer d (refused .wrongState)
    else
      match d.installRefusal q.tunnel epoch with
      | some st => .answer d (refused st)
      | none => .wait (d.acceptInstall q epoch (d.keys.lowestFree.getD 0) secret)

/-- DISCARD_NEXT after the common tests (R66). -/
def Device.discardNext (d : Device) (q : Request) : Taken :=
  let x := d.tunnel q.tunnel
  if ¬ x.state.live then .refuse .wrongState
  else
    match x.next with
    | none => .refuse .noSuchEpoch
    | some n =>
      if n.ready then .answer (d.retireKey q.tunnel .next) (.done (.epoch n.key.epoch)) else .refuse .slotBusy

/-- PROMOTE after the common tests (R72). -/
def Device.promoteRequest (d : Device) (q : Request) : Taken :=
  let epoch := q.num 0 1
  let x := d.tunnel q.tunnel
  if epoch = 0 then .refuse .badRequest
  else if ¬ x.state.promotes then .refuse .wrongState
  else if x.holdsEpoch .current epoch then .quiet d ⟨.done, .alreadyCurrent, .empty⟩
  else if x.next.any fun n => n.ready && !n.key.retirePending && n.key.epoch == epoch then
    let (d, told) := d.promote q.tunnel
    .answer d ⟨.done, .promoted, .promoted epoch told.previous told.retired⟩
  else .refuse .noSuchEpoch

/-- RETIRE_PREVIOUS after the common tests (R90). -/
def Device.retirePrevious (d : Device) (q : Request) : Taken :=
  let x := d.tunnel q.tunnel
  if ¬ x.state.live then .refuse .wrongState
  else
    match x.previous with
    | none => .refuse .noSuchEpoch
    | some k =>
      if k.retirePending then .quiet d ⟨.done, .retirePending, .epoch k.epoch⟩
      else
        .answer (d.retireKey q.tunnel .previous)
          ⟨.done, if k.bound then .retirePending else .retired, .epoch k.epoch⟩

/-- INSTALL_KEY. -/
def execInstallKey (p : Port) (s : State) : Host.Outcome State Fault Refusal :=
  event s fun d => d.takeRequest p 7 Device.installKey

/-- DISCARD_NEXT. -/
def execDiscardNext (p : Port) (s : State) : Host.Outcome State Fault Refusal :=
  event s fun d => d.takeRequest p 8 Device.discardNext

/-- PROMOTE. -/
def execPromote (p : Port) (s : State) : Host.Outcome State Fault Refusal :=
  event s fun d => d.takeRequest p 10 Device.promoteRequest

/-- RETIRE_PREVIOUS. -/
def execRetirePrevious (p : Port) (s : State) : Host.Outcome State Fault Refusal :=
  event s fun d => d.takeRequest p 11 Device.retirePrevious

end Sys2Proof.Machine
end

