-- ==== Sys2Proof/Machine/TunnelRequests.lean ====
section
/-! DEFINITION. OPEN_TUNNEL, CLOSE_TUNNEL, SET_HOLDS and WRITE_PROFILE (R36, R39, R45, R48). -/

namespace Sys2Proof.Machine

/-- A notice that is a FAULT of a tunnel. -/
def Notice.isFaultOf (t : Nat) (n : Notice) : Bool :=
  match n.body with
  | .tunnelFault .. => decide (n.tunnel = some t)
  | _ => false

/-- Notices removed from the operations notice queue; the places freed are offered by the scan, and the retry start
test follows (R132, R135, R36, R141). -/
def Device.removeNotices (d : Device) (gone : Notice → Bool) : Device :=
  let freed := d.operations.notices.countP gone
  if freed = 0 then d
  else
    ((d.modPort .operations fun x => { x with notices := x.notices.filter fun n => !gone n }).faultScan
      freed).retryStartTest

/-- Another tunnel that is not EMPTY holds a shop code (R36). -/
def Device.shopInUse (d : Device) (t : Nat) (shop : BitVec 24) : Bool :=
  (List.range Config.tunnelCount).any fun u =>
    decide (u ≠ t ∧ (d.tunnel u).state ≠ .empty ∧ (d.tunnel u).shop = some shop)

/-- The condition record of a tunnel as it is opened (R120). -/
def Device.openedCondition (d : Device) (profile : Nat) : Condition :=
  { Condition.initial with
    intervalStart := some d.clock
    intervalDeadline := some (d.after (seconds (d.profileAt profile).interval)) }

/-- OPEN_TUNNEL after the common tests (R36). -/
def Device.openTunnel (d : Device) (q : Request) : Taken :=
  let t := q.tunnel
  let shop := BitVec.ofNat 24 (q.num 0 3)
  let profile := q.num 3 1
  if 7 < profile then .refuse .badRequest
  else if (d.tunnel t).state ≠ .empty then .refuse .wrongState
  else if d.shopInUse t shop then .refuse .shopInUse
  else
    let condition := d.openedCondition profile
    let d := d.modTunnel t fun x =>
      { x with
        state := .provisioned, shop := some shop, profile := some profile, outCauses := ⟨false, false, false⟩
        inOps := false, retryCount := 0, condition := condition }
    .answer (d.removeNotices (Notice.isFaultOf t)) (.done .empty)

/-- The timers of a condition record stopped (R39, R120). -/
def Condition.stopped (c : Condition) : Condition :=
  { c with intervalStart := none, intervalDeadline := none, silenceDeadline := none, keepaliveDeadline := none }

/-- CLOSE_TUNNEL after the common tests (R39). -/
def Device.closeTunnel (d : Device) (q : Request) : Taken :=
  let t := q.tunnel
  if ¬ (d.tunnel t).state.live then .refuse .wrongState
  else
    let d := d.modTunnel t fun x => { x with state := .closing, closeTag := some q.tag }
    let d := { d with proofs := { d.proofs with retry := d.proofs.retry.filter fun u => u != t } }
    let d := (d.abortProof t .closing anyPurpose).removeFrames t
    let d := d.modTunnel t fun x => { x with holdDeadline := none }.modCondition Condition.stopped
    .wait (d.endClosing t)

/-- SET_HOLDS after the common tests (R45); an OPS newly added outbound ends an OPERATIONS proof (R151). -/
def Device.setHolds (d : Device) (q : Request) : Taken :=
  let t := q.tunnel
  match holdOf (q.num 0 1), holdOf (q.num 1 1) with
  | some out, some inn =>
    let x := d.tunnel t
    if ¬ (x.state = .inService ∨ x.state = .isolated) then .refuse .wrongState
    else
      let causes := { x.outCauses with ops := out.apply x.outCauses.ops }
      let inOps := inn.apply x.inOps
      let d := d.modTunnel t fun x => { x with outCauses := causes, inOps := inOps }
      let d := if causes.ops ∧ ¬ x.outCauses.ops then d.abortProof t .outboundCause onlyOperations else d
      .answer d (.done (.holds causes inOps))
  | _, _ => .refuse .badRequest

/-- WRITE_PROFILE after the common tests (R48, R49). -/
def Device.writeProfile (d : Device) (q : Request) : Taken :=
  let n := q.num 0 1
  if 7 < n then .refuse .badRequest
  else
    match groupOf (q.num 1 1) with
    | none => .refuse .badRequest
    | some g =>
      match (d.profileAt n).written g q with
      | none => .refuse .badRequest
      | some p =>
        let d := { d with profiles := d.profiles.set n p }
        .answer (if g = .keys then d.reexamine n else d) (.done .empty)

/-- OPEN_TUNNEL. -/
def execOpenTunnel (p : Port) (s : State) : Host.Outcome State Fault Refusal :=
  event s fun d => d.takeRequest p 12 Device.openTunnel

/-- CLOSE_TUNNEL. -/
def execCloseTunnel (p : Port) (s : State) : Host.Outcome State Fault Refusal :=
  event s fun d => d.takeRequest p 13 Device.closeTunnel

/-- SET_HOLDS. -/
def execSetHolds (p : Port) (s : State) : Host.Outcome State Fault Refusal :=
  event s fun d => d.takeRequest p 14 Device.setHolds

/-- WRITE_PROFILE. -/
def execWriteProfile (p : Port) (s : State) : Host.Outcome State Fault Refusal :=
  event s fun d => d.takeRequest p 16 Device.writeProfile

end Sys2Proof.Machine
end

