-- ==== Sys2Proof/Machine/FaultRequests.lean ====
section
/-! DEFINITION. ACK_FAULT (R135). -/

namespace Sys2Proof.Machine

/-- A notice is the FAULT of a tunnel and a kind. -/
def Notice.isTunnelFault (t : Nat) (k : TunnelFault) (n : Notice) : Bool :=
  match n.body with
  | .tunnelFault k' .. => decide (n.tunnel = some t ∧ k' = k)
  | _ => false

/-- A notice is the FAULT of the device and a kind. -/
def Notice.isDeviceFault (k : DeviceFault) (n : Notice) : Bool :=
  match n.body with
  | .deviceFault k' _ => decide (k' = k)
  | _ => false

/-- The runs after an acknowledgement of a kind: that of a storm kind is 0 (R135). -/
def StormCounts.cleared (r : StormCounts) : TunnelFault → StormCounts
  | .authStorm => { r with authFail := 0 }
  | .replayStorm => { r with replay := 0 }
  | .epochDrift => { r with epochMiss := 0 }
  | .shopSilent | .keyExpired | .proofFailed | .tunnelFailed => r

/-- The reply to an acknowledgement that cleared a latch (R135). -/
def Latch.clearedReply (l : Latch) : Reply := ⟨.done, .cleared, .cleared l.stamp l.observed⟩

/-- ACK_FAULT of a tunnel's latch (R135). -/
def Device.ackTunnel (d : Device) (t : Nat) (k : TunnelFault) : Taken :=
  match d.latch t k with
  | none => .quiet d ⟨.done, .notSet, .empty⟩
  | some l =>
    let d := (d.setLatch t k none).modCondition t fun c => { c with runs := c.runs.cleared k }
    .answer (d.removeNotices (Notice.isTunnelFault t k)) l.clearedReply

/-- ACK_FAULT of a device latch (R135). -/
def Device.ackDevice (d : Device) (k : DeviceFault) : Taken :=
  match d.faults.get k with
  | none => .quiet d ⟨.done, .notSet, .empty⟩
  | some l =>
    .answer ({ d with faults := d.faults.set k none }.removeNotices (Notice.isDeviceFault k)) l.clearedReply

/-- ACK_FAULT after the common tests (R135). -/
def Device.ackFault (d : Device) (q : Request) : Taken :=
  if q.device then
    match deviceKindOf (q.num 0 1) with
    | some k => d.ackDevice k
    | none => .refuse .badRequest
  else
    match tunnelKindOf (q.num 0 1) with
    | some k => d.ackTunnel q.tunnel k
    | none => .refuse .badRequest

/-- ACK_FAULT. -/
def execAckFault (p : Port) (s : State) : Host.Outcome State Fault Refusal :=
  event s fun d => d.takeRequest p 19 Device.ackFault

end Sys2Proof.Machine
end

