-- ==== Sys2Proof/Machine/FrameRequests.lean ====
section
/-! DEFINITION. SEND_FRAME, RECEIVE_FRAME and SEND_DIALOGUE (R24, R97, R98, R99). -/

namespace Sys2Proof.Machine

/-- The tests of R24 on the cells of a frame request but for the engine's own; the length has been tested. -/
def Device.cellTests (d : Device) (o : Owner) (count : Nat) (cells : List Nat) (size : Nat) : Option Status :=
  if ¬ cellsNamed count 6 cells then some .badRequest
  else if ¬ cells.all fun n => decide ((d.store.cell n).state = .claimed o) then some .notOwner
  else if cells.length < cellsFor size then some .tooFewCells
  else none

/-- SEND_FRAME after the common tests (R97). -/
def Device.sendFrame (d : Device) (q : Request) : Taken :=
  let length := q.num 1 2
  let cells := q.numbers 3
  match classOf (q.num 0 1) with
  | none => .refuse .badRequest
  | some k =>
    if 1472 < length then .refuse .badRequest
    else
      match d.cellTests .traffic (q.num 3 1) cells (length + 32) with
      | some st => .refuse st
      | none =>
        if d.engine.hasRoom k then
          .wait (d.submit k
            ⟨.trafficPort, q.tag, q.tunnel, .outbound .data, cells, d.store.readSeq cells 0 length, d.clock, false,
              false, false, none⟩)
        else .refuse .queueFull

/-- The kind byte read at submission: byte 1 of the first named cell (R4). -/
def Device.kindByte (d : Device) (cells : List Nat) : Byte := d.store.bytes.read (cellAddress cells 1)

/-- RECEIVE_FRAME after the common tests (R98). -/
def Device.receiveFrame (d : Device) (q : Request) : Taken :=
  let size := q.num 1 2
  let cells := q.numbers 3
  match classOf (q.num 0 1) with
  | none => .refuse .badRequest
  | some k =>
    if ¬ within 32 1504 size then .refuse .badRequest
    else
      match d.cellTests .traffic (q.num 3 1) cells size with
      | some st => .refuse st
      | none =>
        let kind := d.kindByte cells
        let target := inboundQueue kind k
        if d.engine.hasRoom target then
          .wait (d.submit target
            ⟨.trafficPort, q.tag, q.tunnel, .inbound kind, cells, d.store.readSeq cells 0 size, d.clock, false, false,
              false, none⟩)
        else .refuse .queueFull

/-- SEND_DIALOGUE after the common tests (R99). -/
def Device.sendDialogue (d : Device) (q : Request) : Taken :=
  let length := q.num 0 2
  let cells := q.numbers 2
  if 1472 < length then .refuse .badRequest
  else
    match d.cellTests .key (q.num 2 1) cells (length + 32) with
    | some st => .refuse st
    | none =>
      if ¬ d.engine.hasRoom .control then .refuse .queueFull
      else if ¬ d.generatedRoom then .refuse .noticeFull
      else
        .wait (d.submit .control
          ⟨.keyPort, q.tag, q.tunnel, .outbound .dialogue, cells, d.store.readSeq cells 0 length, d.clock, true, false,
            false, none⟩)

/-- SEND_FRAME. -/
def execSendFrame (p : Port) (s : State) : Host.Outcome State Fault Refusal :=
  event s fun d => d.takeRequest p 3 Device.sendFrame

/-- RECEIVE_FRAME. -/
def execReceiveFrame (p : Port) (s : State) : Host.Outcome State Fault Refusal :=
  event s fun d => d.takeRequest p 4 Device.receiveFrame

/-- SEND_DIALOGUE. -/
def execSendDialogue (p : Port) (s : State) : Host.Outcome State Fault Refusal :=
  event s fun d => d.takeRequest p 6 Device.sendDialogue

end Sys2Proof.Machine
end

