-- ==== Sys2Proof/Machine/MonitorRequests.lean ====
section
/-! DEFINITION. SET_MONITOR, FREEZE_MONITORS, THAW_MONITORS and CLEAR_MONITORS (R165, R167, R168). -/

namespace Sys2Proof.Machine

/-- An event source that carries no tunnel, whose filter must be ALL (R165). -/
def EventSource.tunnelless : EventSource → Bool
  | .claimsRefused | .settleFirstEntries | .bulkRescueEntries => true
  | _ => false

/-- The refusal that a filter brings, if any (R165). -/
def filterRefusal (source : Source) (filter : Filter) : Option Status :=
  let number := match filter with
    | .one t => if Config.tunnelCount ≤ t then some Status.noTunnel else none
    | .profile n => if 7 < n then some .badRequest else none
    | .all => none
  match number with
  | some st => some st
  | none =>
    let onlyAll : Bool := match source with
      | .event e => e.tunnelless
      | .level _ | .none => true
    if onlyAll ∧ filter ≠ .all then some .badRequest else none

/-- The mode, compare and threshold fit the source (R165). -/
def programFits (source : Source) (mode : CountMode) (compare : Compare) (threshold : Nat) : Bool :=
  match source with
  | .level l => decide (mode ≠ .count) && decide (threshold ≤ l.largest + 1)
  | .event _ | .none => decide (mode = .count) && decide (compare = .atOrAbove) && decide (threshold = 0)

/-- The operands of a SET_MONITOR that name values the part knows (R165; logs 1 and 20). -/
def Request.program (q : Request) : Option Monitor :=
  match sourceOf (q.num 1 1), filterOf (q.num 2 1) (q.num 3 2), countModeOf (q.num 5 1), compareOf (q.num 6 1),
    switchOf (q.num 9 1) with
  | some source, some filter, some mode, some compare, some freeze =>
    some ⟨BitVec.ofNat 40 (q.num 10 6), false, source, filter, mode, compare, q.num 7 2, freeze, none⟩
  | _, _, _, _, _ => none

/-- SET_MONITOR after the common tests (R165). -/
def Device.setMonitor (d : Device) (q : Request) : Taken :=
  let n := q.num 0 1
  match q.program with
  | none => .refuse .badRequest
  | some m =>
    if Config.monitorCount ≤ n ∨ 2 ^ 40 ≤ q.num 10 6 then .refuse .badRequest
    else
      match filterRefusal m.source m.filter with
      | some st => .refuse st
      | none =>
        if ¬ programFits m.source m.mode m.compare m.threshold then .refuse .badRequest
        else
          let old := d.bank.monitors.getD n Monitor.initial
          let m := { m with held := if m.mode = .edge then some (d.conditionHolds m) else none }
          .quiet { d with bank := { d.bank with monitors := d.bank.monitors.set n m } }
            (.done (.replaced old.counter old.overflow))

/-- FREEZE_MONITORS after the common tests (R167). -/
def Device.freezeBank (d : Device) (_ : Request) : Taken :=
  match d.bank.state with
  | .counting =>
    .quiet { d with bank := { d.bank with state := .frozen .request } } ⟨.done, .frozen, .elapsed d.bank.elapsed⟩
  | .frozen _ => .quiet d ⟨.done, .alreadyFrozen, .elapsed d.bank.elapsed⟩

/-- THAW_MONITORS after the common tests (R167). -/
def Device.thawBank (d : Device) (_ : Request) : Taken :=
  match d.bank.state with
  | .frozen _ =>
    .quiet { d with bank := { d.bank with state := .counting } } ⟨.done, .counting, .elapsed d.bank.elapsed⟩
  | .counting => .quiet d ⟨.done, .alreadyCounting, .elapsed d.bank.elapsed⟩

/-- CLEAR_MONITORS after the common tests (R168). -/
def Device.clearBank (d : Device) (_ : Request) : Taken :=
  .quiet { d with bank := { d.bank with
      monitors := d.bank.monitors.map fun m => { m with counter := 0, overflow := false }
      elapsed := 0 } }
    (.done .empty)

/-- SET_MONITOR. -/
def execSetMonitor (p : Port) (s : State) : Host.Outcome State Fault Refusal :=
  event s fun d => d.takeRequest p 27 Device.setMonitor

/-- FREEZE_MONITORS. -/
def execFreezeMonitors (p : Port) (s : State) : Host.Outcome State Fault Refusal :=
  event s fun d => d.takeRequest p 28 Device.freezeBank

/-- THAW_MONITORS. -/
def execThawMonitors (p : Port) (s : State) : Host.Outcome State Fault Refusal :=
  event s fun d => d.takeRequest p 29 Device.thawBank

/-- CLEAR_MONITORS. -/
def execClearMonitors (p : Port) (s : State) : Host.Outcome State Fault Refusal :=
  event s fun d => d.takeRequest p 30 Device.clearBank

end Sys2Proof.Machine
end

