-- ==== Sys2Proof/Machine/PortAccess.lean ====
section
/-! DEFINITION. The cell window, the accesses to a port window, port reset, and the taking of an unknown code (R22, R23,
R171..R178). -/

namespace Sys2Proof.Machine

/-! ### The cell window (R15, R22, R23) -/

/-- The cell that an offset of the cell window lies in (R22, R171). -/
def windowCell (off : Nat) : Nat := (off - 0x80000) / Config.cellBytes

/-- The part after a command in whose event frames complete: the completion of the frame in work, with the frames that
fail at take in its event, and the two other events that can remove frames of a closing tunnel, which completes them
(R41, R95, R102, R117). -/
def Device.completedBy (d : Device) : Instr → Option Device
  | .outboundCompletion => some d.outboundEnds
  | .inboundCompletion => some d.inboundEnds
  | .derivationComplete => some d.completeJob
  | .closeTunnel p => some (d.takeRequest p 13 Device.closeTunnel)
  | _ => none

/-- A frame that a port submitted, waiting or in work, holds a cell. -/
def Engine.holdsFor (e : Engine) (p : Port) (n : Nat) : Bool :=
  e.held.any fun f => f.submittedBy p && f.cells.contains n

/-- An access of a port to a cell of a frame that it submitted meets a completion, in the event of the next command,
that frees the cell or passes it to the other port: the frame has then ended, and the cell is not the port's to touch
(row 3 of R23; log 40). -/
def Device.meetsLoss (d : Device) (next : Option Instr) (p : Port) (n : Nat) : Bool :=
  (next.bind d.completedBy).any fun e =>
    d.engine.holdsFor p n && !e.engine.holdsFor p n && !e.store.touchable p n

/-- The cell store answers a read of a cell: it is the port's to touch, or the read meets the loss of it (R22, R23). -/
def Device.answersRead (d : Device) (next : Option Instr) (p : Port) (n : Nat) : Bool :=
  d.store.touchable p n || d.meetsLoss next p n

/-- The cell store stores a write to a cell: it is the port's to touch, or the write meets the loss of it while the cell
is IN_WORK (R22, R23).  A write to a QUEUED cell is ignored, whatever follows it (R4; log 40). -/
def Device.storesWrite (d : Device) (next : Option Instr) (p : Port) (n : Nat) : Bool :=
  d.store.touchable p n || (decide ((d.store.cell n).state = .inWork) && d.meetsLoss next p n)

/-- A read of the cell window (R22, R23). -/
def Device.readCell (d : Device) (p : Port) (off : Nat) (next : Option Instr) : Device :=
  if d.answersRead next p (windowCell off) then
    d.returnWord p (wordOf ((List.range 4).map fun i => d.store.bytes.read (off - 0x80000 + i)))
  else (d.returnWord p 0).modPort p fun x => { x with accessFault := true }

/-- A write of the cell window (R4, R22, R23).  A frame that holds the cell is worked as it was submitted (R4, R23). -/
def Device.writeCell (d : Device) (p : Port) (off : Nat) (w : BusWord) (next : Option Instr) : Device :=
  if d.storesWrite next p (windowCell off) then
    { d with store := { d.store with bytes := d.store.bytes.writeFrom (off - 0x80000) (beBytes 4 w.toNat) } }
  else d.modPort p fun x => { x with accessFault := true }

/-! ### The port window (R171) -/

/-- A read of a word of the port window, by its offset (R171).  `next` is the command that follows, which an access to a
cell may meet (R23). -/
def Device.readWindow (d : Device) (p : Port) (off : Nat) (next : Option Instr) : Device :=
  if off < 0x20 then d.returnWord p 0
  else if off < 0x40 then d.readResponse p off
  else if off < 0x60 then d.readNotice p off
  else if off < 0x64 then d.readStatus p
  else if inCellWindow p off then d.readCell p off next
  else d.returnWord p 0

/-- A write of a word of the port window, by its offset (R171).  `next` is the command that follows (R23). -/
def Device.writeWindow (d : Device) (p : Port) (off : Nat) (w : BusWord) (next : Option Instr) : Device :=
  if off < 0x1C then d.modPort p fun x => { x with buffer := bufferWith x.buffer off w }
  else if off = 0x1C then d.post p w
  else if inCellWindow p off then d.writeCell p off w next
  else d

/-! ### The commands -/

/-- REQUEST_POST: a write of the last word of the request area (R172). -/
def execRequestPost (p : Port) (w : BusWord) (s : State) : Host.Outcome State Fault Refusal :=
  event s fun d => d.post p w

/-- PORT_WINDOW_WRITE: a write of a word of the window (R171). -/
def execPortWindowWrite (p : Port) (off : Nat) (w : BusWord) (s : State) : Host.Outcome State Fault Refusal :=
  access off s fun d => d.writeWindow p off w s.pending.head?

/-- RESPONSE_READ: a read of a word of the response area, or of an area that reads zeros (R171, R175). -/
def execResponseRead (p : Port) (off : Nat) (s : State) : Host.Outcome State Fault Refusal :=
  access off s fun d => d.readWindow p off s.pending.head?

/-- NOTICE_READ: a read of a word of the notice area (R171, R177). -/
def execNoticeRead (p : Port) (off : Nat) (s : State) : Host.Outcome State Fault Refusal :=
  access off s fun d => d.readWindow p off s.pending.head?

/-- STATUS_READ: a read of the status word (R176). -/
def execStatusRead (p : Port) (s : State) : Host.Outcome State Fault Refusal := event s fun d => d.readStatus p

/-- CELL_WINDOW_ACCESS: a read or a write of a word of the cell window (R22, R23). -/
def execCellWindowAccess (p : Port) (off : Nat) (write : Option BusWord) (s : State) :
    Host.Outcome State Fault Refusal :=
  access off s fun d =>
    match write with
    | some w => d.writeWindow p off w s.pending.head?
    | none => d.readWindow p off s.pending.head?

/-- PORT_RESET: the posting of a PORT_RESET record with this tag (R178). -/
def execPortReset (p : Port) (tag : BitVec 16) (s : State) : Host.Outcome State Fault Refusal :=
  event s fun d => d.portReset p tag

/-- UNKNOWN_REQUEST_CODE: the taking of a request whose code is not a catalogue number (R173). -/
def execUnknownRequestCode (p : Port) (s : State) : Host.Outcome State Fault Refusal := event s fun d => d.takeUnknown p

end Sys2Proof.Machine
end

