-- ==== Sys2Proof/Machine/ProofRequests.lean ====
section
/-! DEFINITION. START_PROOF, STOP_PROOF, RESTORE_TUNNEL, WRITE_PATTERN, and the proof engine's own starts
(R141, R144, R153..R156). -/

namespace Sys2Proof.Machine

/-- START_PROOF after the common tests (R154). -/
def Device.startRequest (d : Device) (q : Request) : Taken :=
  let rounds := q.num 1 2
  let x := d.tunnel q.tunnel
  match proofModeOf (q.num 0 1) with
  | none => .refuse .badRequest
  | some mode =>
    if 255 < rounds ∨ (rounds = 0 ∧ mode = .stopFirst) then .refuse .badRequest
    else if d.proofs.running.isSome ∨ d.proofs.retry ≠ [] then .refuse .proofBusy
    else if ¬ (x.state = .inService ∧ x.outCauses.isEmpty) then .refuse .wrongState
    else if ¬ d.opsQueueOpen then .refuse .noticeFull
    else .answer (d.startProof q.tunnel .operations mode rounds) (.done .empty)

/-- STOP_PROOF after the common tests (R155). -/
def Device.stopRequest (d : Device) (_ : Request) : Taken :=
  match d.proofs.running with
  | some r =>
    match r.purpose with
    | .operations => .answer (d.endProof .stopped none) (.done .empty)
    | .retry => .refuse .wrongState
  | none => .refuse .wrongState

/-- RESTORE_TUNNEL after the common tests (R156). -/
def Device.restore (d : Device) (q : Request) : Taken :=
  if (d.tunnel q.tunnel).state ≠ .failed then .refuse .wrongState
  else
    let d := d.modTunnel q.tunnel fun x => { x with state := .isolated, retryCount := 0, holdDeadline := none }
    .answer (d.joinRetry q.tunnel) (.done .empty)

/-- WRITE_PATTERN after the common tests (R153). -/
def Device.writePattern (d : Device) (q : Request) : Taken :=
  let k := q.num 0 1
  let p : Pattern := ⟨q.num 1 2, q.num 3 2, q.num 5 2⟩
  let table := d.proofs.patterns.set k p
  if 7 < k ∨ ¬ p.ok ∨ ¬ anyActive table then .refuse .badRequest
  else if d.proofs.running.isSome then .refuse .proofBusy
  else .quiet { d with proofs := { d.proofs with patterns := table } } (.done .empty)

/-- START_PROOF. -/
def execStartProof (p : Port) (s : State) : Host.Outcome State Fault Refusal :=
  event s fun d => d.takeRequest p 22 Device.startRequest

/-- STOP_PROOF. -/
def execStopProof (p : Port) (s : State) : Host.Outcome State Fault Refusal :=
  event s fun d => d.takeRequest p 23 Device.stopRequest

/-- RESTORE_TUNNEL. -/
def execRestoreTunnel (p : Port) (s : State) : Host.Outcome State Fault Refusal :=
  event s fun d => d.takeRequest p 24 Device.restore

/-- WRITE_PATTERN. -/
def execWritePattern (p : Port) (s : State) : Host.Outcome State Fault Refusal :=
  event s fun d => d.takeRequest p 25 Device.writePattern

/-- RETRY_START: the retry start test, and the start it makes when it passes (R141; log 14). -/
def execRetryStart (s : State) : Host.Outcome State Fault Refusal := event s fun d => d.retryStartTest.finish

/-- PROOF_BUILD_ATTEMPT: an attempt to build the frame of a waiting proof (R144; log 14). -/
def execProofBuildAttempt (s : State) : Host.Outcome State Fault Refusal := event s fun d => d.buildAttempt.finish

end Sys2Proof.Machine
end

