-- ==== Sys2Proof/Machine/ReadRequests.lean ====
section
/-! DEFINITION. The requests that only read: READ_SERVICE, READ_SLOTS, READ_TUNNEL, READ_PROFILE, READ_ENGINE,
READ_CONDITION, READ_DEVICE_FAULTS, READ_PROOF, READ_MONITORS (R46, R50, R67, R107, R137, R138, R157, R169). -/

namespace Sys2Proof.Machine

/-- A read: answered with a body, nothing changed. -/
def Taken.tell (d : Device) (body : Body) : Taken := .quiet d (.done body)

/-- The slot state of a NEXT key (R54). -/
def NextKey.slotState (n : NextKey) : SlotState := if n.ready then .ready else .underDerivation

/-- The slot state of a CURRENT key (R54). -/
def CurrentKey.slotState (c : CurrentKey) : SlotState :=
  match c.state with
  | .active => .active
  | .spent => .spent
  | .expired => .expired

/-- READ_SERVICE after the common tests (R46). -/
def Device.tellService (d : Device) (q : Request) : Taken :=
  let x := d.tunnel q.tunnel
  .tell d (.service x.state x.level x.outCauses x.inOps (x.current.map (·.key.epoch)))

/-- What a key's slot tells (R67). -/
def KeyRecord.view (k : KeyRecord) : KeyView :=
  ⟨k.epoch, k.entry, k.bound, k.retirePending, k.outCount, k.highest, k.renewal, k.expired, k.followed⟩

/-- The place of a tunnel in the derivation queue, from 1 (R67). -/
def KeyUnit.place (u : KeyUnit) (t : Nat) : Option Nat :=
  (u.jobs.findIdx? fun j => decide (j.tunnel = t)).map (· + 1)

/-- The slot view of a tunnel (R67). -/
def Device.slotsView (d : Device) (t : Nat) : SlotsView :=
  let x := d.tunnel t
  { state := x.state
    nextState := (x.next.map (·.slotState)).getD .absent
    next := x.next.map (·.key.view)
    currentState := (x.current.map (·.slotState)).getD .absent
    current := x.current.map (·.key.view)
    previousState := if x.previous.isSome then .draining else .absent
    previous := x.previous.map (·.view)
    currentStart := x.current.bind (·.key.ageStart)
    currentAge := x.current.bind fun c => d.ageOf c.key
    previousStart := x.previous.bind (·.ageStart)
    previousAge := x.previous.bind d.ageOf
    hardDeadline := x.current.bind (·.key.hardDeadline)
    graceDeadline := x.previous.bind (·.graceDeadline)
    freeEntries := d.keys.freeCount
    jobs := d.keys.jobs.length
    place := d.keys.place t }

/-- READ_SLOTS after the common tests (R67). -/
def Device.tellSlots (d : Device) (q : Request) : Taken := .tell d (.slots (d.slotsView q.tunnel))

/-- What READ_TUNNEL tells of a key's slot (R52, R70). -/
def KeyRecord.slotView (k : KeyRecord) (s : SlotState) : SlotView := ⟨k.epoch, k.entry, s, k.bound, k.retirePending⟩

/-- The whole record of a tunnel but its key material (R46). -/
def Device.tunnelView (d : Device) (t : Nat) : TunnelView :=
  let x := d.tunnel t
  { state := x.state
    level := x.level
    outCauses := x.outCauses
    inOps := x.inOps
    shop := x.shop
    profile := x.profile
    retryCount := x.retryCount
    holdDeadline := x.holdDeadline
    awaitingRetry := d.proofs.retry.contains t
    frameCount := x.frameCount
    inDerivation := x.inDerivation
    underProof := x.underProof
    next := x.next.map fun n => n.key.slotView n.slotState
    current := x.current.map fun c => c.key.slotView c.slotState
    previous := x.previous.map (·.slotView .draining) }

/-- READ_TUNNEL after the common tests (R46). -/
def Device.tellTunnel (d : Device) (q : Request) : Taken := .tell d (.tunnel (d.tunnelView q.tunnel))

/-- The number of tunnels, in any state but EMPTY, that name a profile (R50). -/
def Device.namedBy (d : Device) (n : Nat) : Nat :=
  (List.range Config.tunnelCount).countP fun t =>
    decide ((d.tunnel t).state ≠ .empty ∧ (d.tunnel t).profile = some n)

/-- The fields of a group of a profile (R47, R50). -/
def Profile.values (p : Profile) : ProfileGroup → GroupValues
  | .keys => .keys p.softFrames p.hardFrames p.softAge p.hardAge p.grace p.followPeer
  | .condition =>
    .condition p.keepalive p.silence p.interval p.authThreshold p.replayThreshold p.epochThreshold p.persistence
  | .faults => .faults p.report p.action p.holdTime p.retryLimit

/-- READ_PROFILE after the common tests (R50). -/
def Device.tellProfile (d : Device) (q : Request) : Taken :=
  let n := q.num 0 1
  match groupOf (q.num 1 1) with
  | none => .refuse .badRequest
  | some g => if 7 < n then .refuse .badRequest else .tell d (.profile ((d.profileAt n).values g) (d.namedBy n))

/-- The time the head of a queue has waited (R107). -/
def Device.waited (d : Device) : List Frame → Option Nat
  | f :: _ => some (d.since f.queuedAt)
  | [] => none

/-- The engine as READ_ENGINE tells it (R107). -/
def Device.engineView (d : Device) : EngineView :=
  let e := d.engine
  { mode := e.mode
    turn := e.turn
    control := e.control.length
    settle := e.settle.length
    bulk := e.bulk.length
    controlWaited := d.waited e.control
    settleWaited := d.waited e.settle
    bulkWaited := d.waited e.bulk
    inWork := e.inWork.map fun w => ⟨w.frame.tunnel, w.frame.flow, w.queue⟩
    placesReserved := d.generatedReserved
    marks := e.marks }

/-- READ_ENGINE after the common tests (R107). -/
def Device.tellEngine (d : Device) (_ : Request) : Taken := .tell d (.engine d.engineView)

/-- The condition record of a tunnel as READ_CONDITION tells it (R137). -/
def Device.conditionView (d : Device) (t : Nat) : ConditionView :=
  let c := (d.tunnel t).condition
  { state := (d.tunnel t).state
    counts := c.counts
    intervalRun := c.intervalStart.map d.since
    runs := c.runs
    totals := c.totals
    keepalivesSent := c.keepalivesSent
    keepalivesSkipped := c.keepalivesSkipped
    outstanding := c.outstanding
    intervalDeadline := c.intervalDeadline
    silenceDeadline := c.silenceDeadline
    keepaliveDeadline := c.keepaliveDeadline
    latches := c.latches }

/-- READ_CONDITION after the common tests (R137). -/
def Device.tellCondition (d : Device) (q : Request) : Taken := .tell d (.condition (d.conditionView q.tunnel))

/-- READ_DEVICE_FAULTS after the common tests (R138). -/
def Device.tellFaults (d : Device) (_ : Request) : Taken :=
  .tell d (.device ⟨d.faults, d.deviceReport, d.operations.notices.length, d.proofs.running.isSome,
    d.waitingFaults.length⟩)

/-- The time left to the echo deadline (R157). -/
def Device.echoLeft (d : Device) : Option Nat :=
  match d.proofs.running with
  | some r =>
    match r.phase with
    | .awaitEcho _ at_ => some (at_ - d.clock).toNat
    | .waitCell | .inFlight _ => none
  | none => none

/-- The proof engine as READ_PROOF tells it (R157). -/
def Device.proofView (d : Device) : ProofView :=
  let u := d.proofs
  { running := u.running
    echoLeft := d.echoLeft
    capture := u.capture
    last := u.last
    serial := u.serial
    queued := u.retry.length
    head := u.retry.head?
    patterns := u.patterns }

/-- READ_PROOF after the common tests (R157). -/
def Device.tellProof (d : Device) (_ : Request) : Taken := .tell d (.proof d.proofView)

/-- A monitor as READ_MONITORS tells it (R169). -/
def Device.monitorView (d : Device) (m : Monitor) : MonitorView :=
  { counter := m.counter
    overflow := m.overflow
    source := m.source
    filter := m.filter
    mode := m.mode
    compare := m.compare
    threshold := m.threshold
    freeze := m.freeze
    level := match m.source with
      | .level l => some (d.level l, d.conditionHolds m)
      | .event _ | .none => none }

/-- READ_MONITORS after the common tests (R169). -/
def Device.tellMonitors (d : Device) (_ : Request) : Taken :=
  .tell d (.bank ⟨d.bank.state, d.bank.elapsed, d.clock, d.bank.monitors.map d.monitorView⟩)

/-- READ_SERVICE. -/
def execReadService (p : Port) (s : State) : Host.Outcome State Fault Refusal :=
  event s fun d => d.takeRequest p 5 Device.tellService

/-- READ_SLOTS. -/
def execReadSlots (p : Port) (s : State) : Host.Outcome State Fault Refusal :=
  event s fun d => d.takeRequest p 9 Device.tellSlots

/-- READ_TUNNEL. -/
def execReadTunnel (p : Port) (s : State) : Host.Outcome State Fault Refusal :=
  event s fun d => d.takeRequest p 15 Device.tellTunnel

/-- READ_PROFILE. -/
def execReadProfile (p : Port) (s : State) : Host.Outcome State Fault Refusal :=
  event s fun d => d.takeRequest p 17 Device.tellProfile

/-- READ_ENGINE. -/
def execReadEngine (p : Port) (s : State) : Host.Outcome State Fault Refusal :=
  event s fun d => d.takeRequest p 18 Device.tellEngine

/-- READ_CONDITION. -/
def execReadCondition (p : Port) (s : State) : Host.Outcome State Fault Refusal :=
  event s fun d => d.takeRequest p 20 Device.tellCondition

/-- READ_DEVICE_FAULTS. -/
def execReadDeviceFaults (p : Port) (s : State) : Host.Outcome State Fault Refusal :=
  event s fun d => d.takeRequest p 21 Device.tellFaults

/-- READ_PROOF. -/
def execReadProof (p : Port) (s : State) : Host.Outcome State Fault Refusal :=
  event s fun d => d.takeRequest p 26 Device.tellProof

/-- READ_MONITORS. -/
def execReadMonitors (p : Port) (s : State) : Host.Outcome State Fault Refusal :=
  event s fun d => d.takeRequest p 31 Device.tellMonitors

end Sys2Proof.Machine
end

