-- ==== Sys2Proof/Machine/System.lean ====
section
/-! DEFINITION. Power, loading, saving, device restart (R181..R184). -/

namespace Sys2Proof.Machine

/-- POWER_ON_RESET: every block at its power-on value and a load begun; the settings image is kept (R182). -/
def Device.powerReset (d : Device) : Device := { Device.powerOn d.image with draws := d.draws }

/-- The part with the items of a settings image in use (R181). -/
def Device.useItems (d : Device) (x : Items) : Device :=
  { d with
    profiles := x.profiles
    proofs := { d.proofs with patterns := x.patterns }
    engine := { d.engine with marks := x.marks }
    keys := { d.keys with lowMark := x.lowMark }
    deviceReport := x.deviceReport }

/-- READY set on every port (R182). -/
def Device.setReady (d : Device) : Device :=
  { d with
    traffic := { d.traffic with ready := true }
    key := { d.key with ready := true }
    operations := { d.operations with ready := true } }

/-- The completion of the load that runs (R182); where none runs the event cannot occur (log 6). -/
def Device.loadEnds (d : Device) : Device :=
  if d.loading then
    let d := { d with loading := false }
    if d.image.passes then (d.useItems d.image.items).setReady
    else (((d.useItems Config.factoryItems).deviceFault .settingsDefaulted 0).setReady).closeEvent
  else d

/-- The completion of the save that runs (R183); where none runs the event cannot occur (log 6). -/
def Device.saveEnds (d : Device) : Device :=
  match d.saving with
  | none => d
  | some s =>
    let d := { d with image := ⟨s.copy, true⟩, saving := none }
    match s.owed with
    | some tag => d.answerDeferred .operations tag 32 .done .none .empty
    | none => d

/-- The values in use that a save copies, with device settings in use or given (R183). -/
def Device.copyOf (d : Device) (x : Marks × Nat × DeviceSet) : Items :=
  ⟨d.profiles, d.proofs.patterns, x.1, x.2.1, x.2.2⟩

/-- SAVE_SETTINGS after the common tests (R183). -/
def Device.save (d : Device) (q : Request) : Taken :=
  match q.savedSettings d.engine.marks d.keys.lowMark d.deviceReport with
  | none => .refuse .badRequest
  | some x => if d.saving.isSome then .refuse .busy else .wait { d with saving := some ⟨d.copyOf x, some q.tag⟩ }

/-- The part set as at power-on but for the monitor bank, which is kept and FROZEN, and RESTARTED (R184, R161). -/
def Device.restart (d : Device) : Device :=
  let n := d.powerReset
  { n with
    traffic := { n.traffic with restarted := true }
    key := { n.key with restarted := true }
    operations := { n.operations with restarted := true }
    bank := { d.bank with state := .frozen .restart, freezeDue := false } }.judgeEdges

/-- The taking of a DEVICE_RESTART: one that passes the common tests needs no place and restarts the part, one that
fails them is refused in one place (R184). -/
def Device.takeRestart (d : Device) (p : Port) : Device :=
  match catalogue 33, d.headRequest p with
  | some row, some q =>
    if q.code = 33 then
      match commonTests p row q with
      | none => d.restart
      | some st => if (d.port p).canReserve 1 then (d.popRequest p 1).conclude p q 1 (.refuse st) else d
    else d
  | _, _ => d

/-- POWER_ON_RESET. -/
def execPowerOnReset (s : State) : Host.Outcome State Fault Refusal := event s Device.powerReset

/-- LOAD_COMPLETE. -/
def execLoadComplete (s : State) : Host.Outcome State Fault Refusal := event s Device.loadEnds

/-- SAVE_COMPLETE. -/
def execSaveComplete (s : State) : Host.Outcome State Fault Refusal := event s Device.saveEnds

/-- SAVE_SETTINGS. -/
def execSaveSettings (p : Port) (s : State) : Host.Outcome State Fault Refusal :=
  event s fun d => d.takeRequest p 32 Device.save

/-- DEVICE_RESTART. -/
def execDeviceRestart (p : Port) (s : State) : Host.Outcome State Fault Refusal := event s fun d => d.takeRestart p

end Sys2Proof.Machine
end

