-- ==== Sys2Proof/Machine/Dispatch.lean ====
section
/-! DEFINITION. The effect of each command on everything but the queue of commands. -/

namespace Sys2Proof.Machine

/-- The effect of a command. -/
def exec (i : Instr) (s : State) : Host.Outcome State Fault Refusal :=
  match i with
  | .powerOnReset => Sys2Proof.Machine.execPowerOnReset s
  | .loadComplete => Sys2Proof.Machine.execLoadComplete s
  | .saveComplete => Sys2Proof.Machine.execSaveComplete s
  | .deviceClockAdvance => Sys2Proof.Machine.execDeviceClockAdvance s
  | .requestPost p w => Sys2Proof.Machine.execRequestPost p w s
  | .portWindowWrite p off w => Sys2Proof.Machine.execPortWindowWrite p off w s
  | .responseRead p off => Sys2Proof.Machine.execResponseRead p off s
  | .noticeRead p off => Sys2Proof.Machine.execNoticeRead p off s
  | .statusRead p => Sys2Proof.Machine.execStatusRead p s
  | .cellWindowAccess p off write => Sys2Proof.Machine.execCellWindowAccess p off write s
  | .claimCells p => Sys2Proof.Machine.execClaimCells p s
  | .releaseCells p => Sys2Proof.Machine.execReleaseCells p s
  | .sendFrame p => Sys2Proof.Machine.execSendFrame p s
  | .receiveFrame p => Sys2Proof.Machine.execReceiveFrame p s
  | .readService p => Sys2Proof.Machine.execReadService p s
  | .sendDialogue p => Sys2Proof.Machine.execSendDialogue p s
  | .installKey p => Sys2Proof.Machine.execInstallKey p s
  | .discardNext p => Sys2Proof.Machine.execDiscardNext p s
  | .readSlots p => Sys2Proof.Machine.execReadSlots p s
  | .promote p => Sys2Proof.Machine.execPromote p s
  | .retirePrevious p => Sys2Proof.Machine.execRetirePrevious p s
  | .openTunnel p => Sys2Proof.Machine.execOpenTunnel p s
  | .closeTunnel p => Sys2Proof.Machine.execCloseTunnel p s
  | .setHolds p => Sys2Proof.Machine.execSetHolds p s
  | .readTunnel p => Sys2Proof.Machine.execReadTunnel p s
  | .writeProfile p => Sys2Proof.Machine.execWriteProfile p s
  | .readProfile p => Sys2Proof.Machine.execReadProfile p s
  | .readEngine p => Sys2Proof.Machine.execReadEngine p s
  | .ackFault p => Sys2Proof.Machine.execAckFault p s
  | .readCondition p => Sys2Proof.Machine.execReadCondition p s
  | .readDeviceFaults p => Sys2Proof.Machine.execReadDeviceFaults p s
  | .startProof p => Sys2Proof.Machine.execStartProof p s
  | .stopProof p => Sys2Proof.Machine.execStopProof p s
  | .restoreTunnel p => Sys2Proof.Machine.execRestoreTunnel p s
  | .writePattern p => Sys2Proof.Machine.execWritePattern p s
  | .readProof p => Sys2Proof.Machine.execReadProof p s
  | .setMonitor p => Sys2Proof.Machine.execSetMonitor p s
  | .freezeMonitors p => Sys2Proof.Machine.execFreezeMonitors p s
  | .thawMonitors p => Sys2Proof.Machine.execThawMonitors p s
  | .clearMonitors p => Sys2Proof.Machine.execClearMonitors p s
  | .readMonitors p => Sys2Proof.Machine.execReadMonitors p s
  | .saveSettings p => Sys2Proof.Machine.execSaveSettings p s
  | .deviceRestart p => Sys2Proof.Machine.execDeviceRestart p s
  | .portReset p tag => Sys2Proof.Machine.execPortReset p tag s
  | .derivationComplete => Sys2Proof.Machine.execDerivationComplete s
  | .outboundCompletion => Sys2Proof.Machine.execOutboundCompletion s
  | .inboundCompletion => Sys2Proof.Machine.execInboundCompletion s
  | .graceExpiry t => Sys2Proof.Machine.execGraceExpiry t s
  | .softAgeExpiry t => Sys2Proof.Machine.execSoftAgeExpiry t s
  | .hardAgeExpiry t => Sys2Proof.Machine.execHardAgeExpiry t s
  | .intervalExpiry t => Sys2Proof.Machine.execIntervalExpiry t s
  | .silenceExpiry t => Sys2Proof.Machine.execSilenceExpiry t s
  | .keepaliveExpiry t => Sys2Proof.Machine.execKeepaliveExpiry t s
  | .holdExpiry t => Sys2Proof.Machine.execHoldExpiry t s
  | .echoDeadlineExpiry => Sys2Proof.Machine.execEchoDeadlineExpiry s
  | .retryStart => Sys2Proof.Machine.execRetryStart s
  | .proofBuildAttempt => Sys2Proof.Machine.execProofBuildAttempt s
  | .unknownRequestCode p => Sys2Proof.Machine.execUnknownRequestCode p s

end Sys2Proof.Machine
end

