-- ==== Sys2Proof/Safety.lean ====
section
/-! DEFINITION. The invariants that every step keeps, and the premises that statements share. -/

namespace Sys2Proof.Machine

/-! ### The cell store (R15, R16) -/

/-- A listed cell: its number is one of the 2048, it is not FREE, and it is charged to a pool. -/
def cellOk (e : Nat × Cell) : Bool :=
  decide (e.1 < Config.cellCount) && decide (e.2.state ≠ .free) && e.2.charge.isSome

/-- The cell store is in order: both lists canonical, every cell that is not FREE charged to exactly one pool, and
neither pool above its limit (R15, R16). -/
def CellStore.Ok (c : CellStore) : Prop :=
  SMap.wf Cell.free c.cells = true ∧ Memory.wf c.bytes = true ∧ c.cells.all cellOk = true
    ∧ c.charged .regular ≤ Config.regularLimit ∧ c.charged .reserved ≤ Config.reservedLimit

/-- Every FREE cell holds zeros (R15, R21). -/
def CellStore.FreeZero (c : CellStore) : Prop :=
  ∀ n b, (c.cell n).state = .free → b < 256 → c.bytes.read (n * 256 + b) = 0

/-- A frame's cells are as many as its bytes need: a payload with the 32 bytes of header and tag outbound, the whole
frame inbound (R5, R24). -/
def Frame.Fits (f : Frame) : Prop :=
  match f.flow with
  | .outbound _ => f.size + 32 ≤ f.cells.length * 256
  | .inbound _ => f.size ≤ f.cells.length * 256

/-- The cells of the frames that wait and of the frame in work: every one of a frame that waits is QUEUED, every one
of the frame in work is IN_WORK, no cell is named twice, and each frame fits in its cells (R5, R15, R24, R25). -/
def Device.FramesHold (d : Device) : Prop :=
  (∀ f ∈ d.engine.waiting, ∀ n ∈ f.cells, (d.store.cell n).state = .queued)
    ∧ (∀ w, d.engine.inWork = some w → ∀ n ∈ w.frame.cells, (d.store.cell n).state = .inWork)
    ∧ (d.engine.held.flatMap (·.cells)).Nodup ∧ ∀ f ∈ d.engine.held, f.Fits

/-! ### Capacities (R61, R94, R131, R171, R177) -/

/-- No queue of the part holds more than its capacity. -/
def Device.Bounded (d : Device) : Prop :=
  d.engine.control.length ≤ 64 ∧ d.engine.settle.length ≤ 384 ∧ d.engine.bulk.length ≤ 576
    ∧ d.keys.jobs.length ≤ 8 ∧ (∀ p, (d.port p).requests.length ≤ 16) ∧ d.key.notices.length ≤ 64 ∧ d.opsTaken ≤ 128

/-- The requests of a port that have been taken and whose deferred response is still owed: frames that the port
submitted and that are not orphaned, derivation jobs, closings and a save (R174). -/
def Device.owed (d : Device) : Port → Nat
  | .traffic => d.engine.held.countP fun f => decide (f.party = .trafficPort) && !f.orphan
  | .key =>
    (d.engine.held.countP fun f => decide (f.party = .keyPort) && !f.orphan)
      + d.keys.jobs.countP fun j => j.owed.isSome
  | .operations =>
    ((List.range 480).countP fun t => (d.tunnel t).closeTag.isSome) + bit ((d.saving.bind (·.owed)).isSome)

/-- On each port a place is reserved for every response owed, and unread responses and reserved places come to at most
32; only the 480 tunnels are closed on request, and an inbound frame is the traffic port's (R98, R173, R174). -/
def Device.PlacesKept (d : Device) : Prop :=
  (∀ p, d.owed p ≤ (d.port p).reserved ∧ (d.port p).responses.length + (d.port p).reserved ≤ 32)
    ∧ (∀ t, 480 ≤ t → (d.tunnel t).closeTag = none)
    ∧ ∀ f ∈ d.engine.held, ∀ b, f.flow = .inbound b → f.party = .trafficPort

/-- On the traffic port, unread notices and reserved GENERATED places come to at most 64; a frame that a GENERATED
notice will announce is in CONTROL or in work, and holds a place unless a port reset took it (R96, R100). -/
def Device.NoticesKept (d : Device) : Prop :=
  d.traffic.notices.length + d.generatedReserved ≤ 64
    ∧ (∀ f ∈ d.engine.settle ++ d.engine.bulk, f.party = .trafficPort ∧ f.reserved = false)
    ∧ ∀ f ∈ d.engine.held, f.party ≠ .trafficPort → f.reserved = true ∨ f.lost = true

/-! ### The retry queue and the key store (R51, R54, R56, R61, R69, R140, R141) -/

/-- The retry queue holds each tunnel at most once, every member ISOLATED with its hold ended; the tunnel of a running
RETRY proof is such a tunnel and has left the queue; a hold runs on an ISOLATED tunnel only, and an ISOLATED tunnel has
a hold that runs, or waits in the queue, or has a RETRY proof running on it; a tunnel outside the 480 is EMPTY
(R140, R141). -/
def Device.RetryKept (d : Device) : Prop :=
  d.proofs.retry.Nodup
    ∧ (∀ t ∈ d.proofs.retry, (d.tunnel t).state = .isolated ∧ (d.tunnel t).holdDeadline = none)
    ∧ (∀ r, d.proofs.running = some r → r.purpose = .retry →
      (d.tunnel r.tunnel).state = .isolated ∧ (d.tunnel r.tunnel).holdDeadline = none ∧ r.tunnel ∉ d.proofs.retry)
    ∧ (∀ t, (d.tunnel t).holdDeadline.isSome = true → (d.tunnel t).state = .isolated)
    ∧ (∀ t, (d.tunnel t).state = .isolated →
      (d.tunnel t).holdDeadline.isSome = true ∨ t ∈ d.proofs.retry
        ∨ ∃ r, d.proofs.running = some r ∧ r.purpose = .retry ∧ r.tunnel = t)
    ∧ ∀ t, 480 ≤ t → (d.tunnel t).state = .empty

/-- The slot of a tunnel holds this key record. -/
def Device.Holds (d : Device) (t : Nat) (s : Slot) (k : KeyRecord) : Prop := (d.tunnel t).key? s = some k

/-- The entries in use are exactly those of the slots that are not ABSENT, and no two slots share one; a derivation job
and a DERIVING NEXT of its tunnel, epoch and entry go together, one a tunnel, with the derivation in flight flag; a key
is bound where the frame in work is bound to it, never a DERIVING one; the frame in work is bound to a key that a slot
of its tunnel holds; and only a bound key is retire pending (R51, R54, R56, R61, R69). -/
def Device.KeysKept (d : Device) : Prop :=
  (∀ e, d.keys.entry e ≠ .free ↔ ∃ t s k, d.Holds t s k ∧ k.entry = e)
    ∧ (∀ t s k u r m, d.Holds t s k → d.Holds u r m → k.entry = m.entry → t = u ∧ s = r)
    ∧ (∀ t s k, d.Holds t s k → k.entry < 1024)
    ∧ (∀ j ∈ d.keys.jobs, ∃ n, (d.tunnel j.tunnel).next = some n ∧ n.ready = false ∧ n.key.epoch = j.epoch
      ∧ n.key.entry = j.entry)
    ∧ (d.keys.jobs.map (·.tunnel)).Nodup
    ∧ (∀ t n, (d.tunnel t).next = some n → n.ready = false → n.key.bound = false ∧ ∃ j ∈ d.keys.jobs, j.tunnel = t)
    ∧ (∀ t, (d.tunnel t).inDerivation = true ↔ ∃ n, (d.tunnel t).next = some n ∧ n.ready = false)
    ∧ (∀ t s k, d.Holds t s k →
      (k.bound = true ↔ ∃ w, d.engine.inWork = some w ∧ w.frame.tunnel = t ∧ w.entry = k.entry))
    ∧ (∀ w, d.engine.inWork = some w → ∃ s k, d.Holds w.frame.tunnel s k ∧ k.entry = w.entry)
    ∧ ∀ t s k, d.Holds t s k → k.retirePending = true → k.bound = true

/-! ### Settled states (R92, R102, R144) -/

/-- Nothing of an event is left to be done: the engine is BUSY or no frame waits, no attempt of a proof is due, and no
key flag waits while the key port's notice queue has room. -/
def Device.Settled (d : Device) : Prop :=
  d.buildDue = false ∧ (d.engine.inWork = none → d.engine.hasFrames = false)
    ∧ (d.waitingFlags = [] ∨ 64 ≤ d.key.notices.length)

/-- Settled, and no proof waits for room for its frame. -/
def Device.Quiet (d : Device) : Prop := d.Settled ∧ d.proofWaits = false

/-- Two states of the part differ at most in the monitor bank, the device latches and the operations port's notices:
what the end of an event may change. -/
def Device.SameButBank (a b : Device) : Prop :=
  { a with bank := b.bank, faults := b.faults
           operations := { a.operations with notices := b.operations.notices } } = b

/-! ### Resets (R15, R33, R53, R94, R95, R103, R120, R130, R142, R171) -/

/-- A port controller that holds nothing and is not READY. -/
def PortState.Empty (x : PortState) : Prop :=
  x.buffer = List.replicate 32 0 ∧ x.requests = [] ∧ x.responses = [] ∧ x.reserved = 0 ∧ x.notices = []
    ∧ x.ready = false ∧ x.overrun = false ∧ x.accessFault = false

/-- What every power-on reset and device restart leaves in every block but the monitor bank and the settings. -/
def Device.Emptied (d : Device) : Prop :=
  d.clock = 0 ∧ (∀ n, d.store.cell n = ⟨.free, none⟩) ∧ (∀ a, d.store.bytes.read a = 0)
    ∧ (∀ t, d.tunnel t = Tunnel.initial) ∧ (∀ e, d.keys.entry e = .free) ∧ d.keys.jobs = []
    ∧ d.engine.control = [] ∧ d.engine.settle = [] ∧ d.engine.bulk = [] ∧ d.engine.inWork = none
    ∧ d.engine.mode = .base .normal ∧ d.engine.turn = .settle1 ∧ d.faults = ⟨none, none, none, none⟩
    ∧ d.proofs.running = none ∧ d.proofs.serial = 0 ∧ d.proofs.capture = none ∧ d.proofs.last = none
    ∧ d.proofs.retry = [] ∧ (∀ p, (d.port p).Empty) ∧ d.loading = true ∧ d.saving = none

/-! ### Premises of a taking (R173) -/

/-- The port and the code of the request that a command takes. -/
def requestTaken : Instr → Option (Port × Nat)
  | .claimCells p => some (p, 1)
  | .releaseCells p => some (p, 2)
  | .sendFrame p => some (p, 3)
  | .receiveFrame p => some (p, 4)
  | .readService p => some (p, 5)
  | .sendDialogue p => some (p, 6)
  | .installKey p => some (p, 7)
  | .discardNext p => some (p, 8)
  | .readSlots p => some (p, 9)
  | .promote p => some (p, 10)
  | .retirePrevious p => some (p, 11)
  | .openTunnel p => some (p, 12)
  | .closeTunnel p => some (p, 13)
  | .setHolds p => some (p, 14)
  | .readTunnel p => some (p, 15)
  | .writeProfile p => some (p, 16)
  | .readProfile p => some (p, 17)
  | .readEngine p => some (p, 18)
  | .ackFault p => some (p, 19)
  | .readCondition p => some (p, 20)
  | .readDeviceFaults p => some (p, 21)
  | .startProof p => some (p, 22)
  | .stopProof p => some (p, 23)
  | .restoreTunnel p => some (p, 24)
  | .writePattern p => some (p, 25)
  | .readProof p => some (p, 26)
  | .setMonitor p => some (p, 27)
  | .freezeMonitors p => some (p, 28)
  | .thawMonitors p => some (p, 29)
  | .clearMonitors p => some (p, 30)
  | .readMonitors p => some (p, 31)
  | .saveSettings p => some (p, 32)
  | _ => none

/-- The port is READY, a request stands at the head of its queue, and the places it needs can be reserved (R173). -/
def Device.Offers (d : Device) (p : Port) (q : Request) (places : Nat) : Prop :=
  (d.port p).ready = true ∧ ((d.port p).requests.head?.map Request.ofRecord = some q)
    ∧ (d.port p).responses.length + (d.port p).reserved + places ≤ 32

/-- A request of this code is taken and passes the common tests (R173). -/
def Device.Poses (d : Device) (p : Port) (q : Request) (code : Nat) : Prop :=
  ∃ row, catalogue code = some row ∧ q.code = code ∧ d.Offers p q row.places ∧ commonTests p row q = none

/-- The part once the request at the head of a port's queue has left it: its places are reserved. -/
def Device.taken (d : Device) (p : Port) (code : Nat) : Device :=
  d.popRequest p (((catalogue code).map (·.places)).getD 1)

/-- The response to that request queued in its places, with what is left of them released. -/
def Device.respond (d : Device) (p : Port) (q : Request) (r : Reply) : Device :=
  d.reply p q (((catalogue q.code).map (·.places)).getD 1) r

/-- The part after the request at the head of a port's queue has been taken and answered, nothing else changed. -/
def Device.answered (d : Device) (p : Port) (q : Request) (r : Reply) : Device := (d.taken p q.code).respond p q r

/-- A reply that refuses a request. -/
def Reply.refusal (st : Status) : Reply := ⟨st, .none, .empty⟩

/-- The next state in which the part is this one, the queue of commands as it stood. -/
def State.to (s : State) (d : Device) : Host.Outcome State Fault Refusal := .next { s with dev := d }

end Sys2Proof.Machine
end

