-- ==== Sys2Proof/Certificates/Slice0/Obligations.lean ====
section
/-! DEFINITION. The statements for the provers.

`s.to d` is the next state in which the part is `d`.  `d.taken p code` is the part once the request at the head of a
port's queue has left it with its places reserved, and `respond` queues its response (R173, R174).  Where an operand of
a request is read by its position (`num`, `numbers`), the position is the model's (log 1).  The number of records that
`respond` makes of a long response is a free value (log 2).  `finish` is the end of an event: what is left to settle is
settled, the key flags that the event has made unreported are offered, then the monitor bank judges its edges
(`closeEvent`); what it does is stated by EveryEventIsSettled, QuietEventsEndInTheBank and the statements on takes,
attempts and key flags. -/

open Sys2Proof Sys2Proof.Machine

/-! ### The machine -/

/-- A step takes the command at the front of the queue and runs it on the rest; on an empty queue the block idles (the
queue is the model's frame: logs 8 and 24). -/
def Obligations.StepRunsTheFrontCommand : Prop :=
  ∀ (c : Instr) (rest : List Instr) (s : State),
    step { s with pending := c :: rest } = exec c { s with pending := rest }
      ∧ step { s with pending := [] } = .next { s with pending := [] }

/-- Every well-formed command answers a next state, whatever the state, and leaves the queue of commands as it stood;
an access that is not one aligned word of a port window does not exist (R171).  That every command answers is the
model's choice for events that cannot occur (log 6); that the other accesses fault by name is the model's (log 26). -/
def Obligations.WellFormedCommandsComplete : Prop :=
  (∀ (c : Instr) (s : State), c.wellFormed = true → ∃ t, exec c s = .next t ∧ t.pending = s.pending)
    ∧ ∀ (s : State) (p : Port) (off : Nat) (w : BusWord) (write : Option BusWord),
      (0x100000 ≤ off →
        exec (.portWindowWrite p off w) s = .fault .outsideWindow
          ∧ exec (.responseRead p off) s = .fault .outsideWindow ∧ exec (.noticeRead p off) s = .fault .outsideWindow
          ∧ exec (.cellWindowAccess p off write) s = .fault .outsideWindow)
        ∧ (off < 0x100000 → off % 4 ≠ 0 →
          exec (.portWindowWrite p off w) s = .fault .unalignedAccess
            ∧ exec (.responseRead p off) s = .fault .unalignedAccess
            ∧ exec (.noticeRead p off) s = .fault .unalignedAccess
            ∧ exec (.cellWindowAccess p off write) s = .fault .unalignedAccess)

/-! ### Resets, loads and saves -/

/-- POWER_ON_RESET: every block at its power-on value, RESTARTED clear, the bank as R161 gives it, a load begun; the
settings image stands as it was (R15, R33, R53, R94, R95, R161, R171, R182, R185).  The values in use until the load
completes are the factory values (the model's choice: log 10), which are those of R47, R71, R106, R130 and R153. -/
def Obligations.PowerOnResetEmptiesThePart : Prop :=
  let profile : Profile :=
    { softFrames := 4294967296, hardFrames := 17179869184, softAge := 43200, hardAge := 86400, grace := 5000
      followPeer := true, keepalive := 20, silence := 90, interval := 10, authThreshold := 20, replayThreshold := 50
      epochThreshold := 20, persistence := 3, report := ⟨true, true, true, true, true, true, true⟩
      action := ⟨true, false, false, false⟩, holdTime := 30, retryLimit := 3 }
  let none_ : Pattern := ⟨0, 0, 0⟩
  let factory : Items :=
    ⟨[profile, profile, profile, profile, profile, profile, profile, profile],
      [⟨64, 0, 1⟩, ⟨1472, 0xA5, 7⟩, none_, none_, none_, none_, none_, none_], ⟨288, 96, 2000, 8⟩, 64,
      ⟨true, true, true, true⟩⟩
  Config.factoryItems = factory ∧ ∀ s : State, ∃ d,
    exec .powerOnReset s = s.to d ∧ d.Emptied ∧ (∀ p, (d.port p).restarted = false) ∧ d.image = s.dev.image
      ∧ d.bank.state = .counting ∧ d.bank.elapsed = 0
      ∧ d.bank.monitors = List.replicate 12 ⟨0, false, .none, .all, .count, .atOrAbove, 0, false, none⟩
      ∧ (⟨d.profiles, d.proofs.patterns, d.engine.marks, d.keys.lowMark, d.deviceReport⟩ : Items) = factory

/-- The state after reset is a power-on reset of a part whose image holds the factory values, with no command waiting,
and it meets every invariant stated here (the image of a part that has never saved is the model's choice: log 9). -/
def Obligations.ResetMeetsTheInvariants : Prop :=
  exec .powerOnReset State.reset = .next State.reset
    ∧ State.reset.pending = [] ∧ State.reset.dev.image = ⟨Config.factoryItems, true⟩
    ∧ State.reset.dev.Emptied ∧ State.reset.dev.store.Ok ∧ State.reset.dev.store.FreeZero ∧ State.reset.dev.FramesHold
    ∧ State.reset.dev.Bounded ∧ State.reset.dev.Settled ∧ State.reset.dev.PlacesKept ∧ State.reset.dev.NoticesKept
    ∧ State.reset.dev.RetryKept ∧ State.reset.dev.KeysKept

/-- LOAD_COMPLETE while a load runs: an image that passes puts every item into use; one that fails puts the factory
values into use, and SETTINGS_DEFAULTED occurs with detail 0; then READY is set on all three ports (R181, R182).  An
image passes where its check matches and every item lies in its range: eight profiles in the ranges of R47 with
TUNNEL_FAILED in the report set, eight patterns in those of R153 with one active, the marks in those of R106, the low
mark in that of R71 (that the ranges belong to the check is log 11).  With no load running the event cannot occur, and
the model changes nothing (log 6). -/
def Obligations.LoadCompletionPutsTheImageIntoUse : Prop :=
  ∀ s : State,
    let d : Device := { s.dev with loading := false }
    let use (x : Items) : Device :=
      { d with
        profiles := x.profiles, proofs := { d.proofs with patterns := x.patterns }
        engine := { d.engine with marks := x.marks }, keys := { d.keys with lowMark := x.lowMark }
        deviceReport := x.deviceReport }
    let ready (d : Device) : Device :=
      { d with
        traffic := { d.traffic with ready := true }, key := { d.key with ready := true }
        operations := { d.operations with ready := true } }
    let x := s.dev.image.items
    let inRange : Prop :=
      x.profiles.length = 8
        ∧ (∀ p ∈ x.profiles,
          (1 ≤ p.softFrames ∧ p.softFrames ≤ 2 ^ 40 ∧ p.softFrames ≤ p.hardFrames ∧ p.hardFrames ≤ 2 ^ 40
            ∧ 60 ≤ p.softAge ∧ p.softAge ≤ 2592000 ∧ p.softAge ≤ p.hardAge ∧ p.hardAge ≤ 2592000
            ∧ 100 ≤ p.grace ∧ p.grace ≤ 60000)
          ∧ (p.keepalive ≤ 300 ∧ 3 ≤ p.silence ∧ p.silence ≤ 3600 ∧ 1 ≤ p.interval ∧ p.interval ≤ 60
            ∧ p.authThreshold ≤ 65535 ∧ p.replayThreshold ≤ 65535 ∧ p.epochThreshold ≤ 65535
            ∧ 1 ≤ p.persistence ∧ p.persistence ≤ 8)
          ∧ 1 ≤ p.holdTime ∧ p.holdTime ≤ 600 ∧ p.retryLimit ≤ 7 ∧ p.report.tunnelFailed = true)
        ∧ x.patterns.length = 8
        ∧ (∀ p ∈ x.patterns,
          (p.length = 0 ∨ (16 ≤ p.length ∧ p.length ≤ 1472)) ∧ p.seed ≤ 255 ∧ p.step ≤ 255)
        ∧ (∃ p ∈ x.patterns, p.length ≠ 0)
        ∧ (2 ≤ x.marks.high ∧ x.marks.high ≤ 384 ∧ x.marks.low < x.marks.high ∧ 100 ≤ x.marks.rescueLimit
          ∧ x.marks.rescueLimit ≤ 100000 ∧ 1 ≤ x.marks.rescueBatch ∧ x.marks.rescueBatch ≤ 64)
        ∧ x.lowMark ≤ 1024
    exec .loadComplete s =
      if s.dev.loading = false then .next s
      else if s.dev.image.checkMatch = true ∧ inRange then s.to (ready (use x))
      else s.to ((ready ((use Config.factoryItems).deviceFault .settingsDefaulted 0)).closeEvent)

/-- SAVE_SETTINGS: a choice that is neither KEEP (0) nor REPLACE (1), a value given outside its range in R106, R71 or
R130, and a low mark at or above the high mark are refused BAD_REQUEST, then a save that runs BUSY; on acceptance the
copy of the values in use is taken, with the device settings in use or those given, and the response is deferred.
SAVE_COMPLETE: the image is replaced whole by the copy, and the response owed is queued, status DONE, unless it was
given up (R183).  With no save running the event cannot occur, and the model changes nothing (log 6).  Operand positions
and codes: the model's (log 1). -/
def Obligations.SavesReplaceTheImage : Prop :=
  (∀ (s : State) (q : Request), s.dev.Poses .operations q 32 →
    let d := s.dev.taken .operations 32
    let choice := q.num 0 1
    let given : Marks := ⟨q.num 1 2, q.num 3 2, q.num 5 4, q.num 9 1⟩
    let lowMark := q.num 10 2
    let report := q.num 12 1
    let inRange := 2 ≤ given.high ∧ given.high ≤ 384 ∧ given.low < given.high ∧ 100 ≤ given.rescueLimit
      ∧ given.rescueLimit ≤ 100000 ∧ 1 ≤ given.rescueBatch ∧ given.rescueBatch ≤ 64 ∧ lowMark ≤ 1024 ∧ report < 16
    let copy : Items :=
      if choice = 0 then
        ⟨s.dev.profiles, s.dev.proofs.patterns, s.dev.engine.marks, s.dev.keys.lowMark, s.dev.deviceReport⟩
      else
        ⟨s.dev.profiles, s.dev.proofs.patterns, given, lowMark,
          ⟨report.testBit 0, report.testBit 1, report.testBit 2, report.testBit 3⟩⟩
    exec (.saveSettings .operations) s =
      if 1 < choice ∨ (choice = 1 ∧ ¬ inRange) then s.to (d.respond .operations q (.refusal .badRequest))
      else if s.dev.saving.isSome then s.to (d.respond .operations q (.refusal .busy))
      else s.to { d with saving := some ⟨copy, some q.tag⟩ }.finish)
    ∧ (∀ (s : State) (v : Save), s.dev.saving = some v →
      let d : Device := { s.dev with image := ⟨v.copy, true⟩, saving := none }
      exec .saveComplete s = s.to (match v.owed with
        | none => d
        | some tag => d.modPort .operations fun x =>
          { x with reserved := x.reserved - 1
                   responses := x.responses ++ [⟨⟨tag, 32, .done, .none, .empty⟩, 0, 1⟩] }))
    ∧ ∀ s : State, s.dev.saving = none → exec .saveComplete s = .next s

/-- DEVICE_RESTART that passes the common tests is taken with no place and gets no response: the part is as at power-on
reset, but the bank keeps its counters, overflow latches, programming and elapsed counter and is FROZEN, cause RESTART,
each EDGE monitor's condition held is judged on the levels the restart leaves, and RESTARTED is set on all three ports;
the image is kept (R161, R184).  On the other ports it is refused WRONG_PORT, and on the operations port with flags
other than 0 BAD_REQUEST, once a place can be reserved (R173, R184). -/
def Obligations.DeviceRestartKeepsTheBank : Prop :=
  (∀ (s : State) (q : Request),
    s.dev.operations.ready = true → s.dev.operations.requests.head?.map Request.ofRecord = some q → q.code = 33 →
    q.flags = 0 →
      ∃ d, exec (.deviceRestart .operations) s = s.to d ∧ d.Emptied ∧ (∀ p, (d.port p).restarted = true)
        ∧ d.image = s.dev.image ∧ d.bank.state = .frozen .restart ∧ d.bank.elapsed = s.dev.bank.elapsed
        ∧ d.bank.monitors = s.dev.bank.monitors.map fun m =>
            if m.mode = .edge then { m with held := some (d.conditionHolds m) } else m)
    ∧ ∀ (s : State) (p : Port) (q : Request), s.dev.Offers p q 1 → q.code = 33 →
      let refused (st : Status) := exec (.deviceRestart p) s = s.to ((s.dev.popRequest p 1).reply p q 1 (.refusal st))
      (p ≠ .operations → refused .wrongPort) ∧ (p = .operations → q.flags ≠ 0 → refused .badRequest)

/-! ### Invariants that every step keeps -/

/-- Every step keeps the cell store in order: each cell that is not FREE is charged to exactly one pool, no FREE cell
is charged, neither pool is above its limit, and cells and bytes stay in their one canonical form (R15, R16).  Every
step keeps the key store in order as well: the entries in use are exactly the entries of the slots that are not ABSENT,
none shared; a derivation job and a DERIVING NEXT go together, one a tunnel; and only the key to which the frame in work
is bound can be bound or retire pending (R51, R54, R56, R61, R69). -/
def Obligations.StepsKeepTheCellStoreInOrder : Prop :=
  (∀ s t : State, step s = .next t → s.dev.store.Ok → t.dev.store.Ok)
    ∧ ∀ s t : State, step s = .next t → s.dev.KeysKept → t.dev.KeysKept

/-- Every step keeps these queues within their capacities: the work queues, the derivation queue, the request queues,
the key port's notices, and the operations port's notices with the place a running proof holds (R61, R94, R131, R171).
Every step keeps the retry queue's law as well: each tunnel at most once, every member below 480 and ISOLATED with its
hold ended, and every ISOLATED tunnel with its hold running, in the queue, or under a RETRY proof (R140, R141).  The
response queues and the traffic port's notices are in StepsKeepAPlaceForEveryResponse and StepsKeepGeneratedPlaces. -/
def Obligations.StepsKeepQueuesWithinCapacity : Prop :=
  (∀ s t : State, step s = .next t → s.dev.Bounded → t.dev.Bounded)
    ∧ (∀ s t : State, step s = .next t → s.dev.RetryKept → t.dev.RetryKept)
    ∧ ∀ d : Device, d.RetryKept → ∀ t ∈ d.proofs.retry, t < 480

/-- Every step leaves nothing of its event undone: the engine is BUSY or no frame waits (R102), no attempt of a waiting
proof is due (R144), and no key flag waits while the key port's notice queue has room (R92). -/
def Obligations.EveryEventIsSettled : Prop :=
  ∀ s t : State, step s = .next t → s.dev.Settled → t.dev.Settled

/-- Every step keeps FREE cells at zeros, and keeps the cells of waiting frames QUEUED, those of the frame in work
IN_WORK, no cell in two frames, and every frame within its cells (R5, R15, R21, R24, R25). -/
def Obligations.StepsKeepFreeCellsZero : Prop :=
  ∀ s t : State, step s = .next t →
    s.dev.store.Ok → s.dev.store.FreeZero → s.dev.FramesHold → t.dev.store.FreeZero ∧ t.dev.FramesHold

/-- Every step keeps the law of response places: on each port a reserved place stands for every response owed, and
responses unread and places reserved never exceed 32 (R173, R174). -/
def Obligations.StepsKeepAPlaceForEveryResponse : Prop :=
  ∀ s t : State, step s = .next t → s.dev.PlacesKept → t.dev.PlacesKept

/-- Every step keeps the traffic port's notice places: notices unread and GENERATED places reserved never exceed 64, so
that a GENERATED notice is never refused for lack of room (R100). -/
def Obligations.StepsKeepGeneratedPlaces : Prop :=
  ∀ s t : State, step s = .next t → s.dev.NoticesKept → t.dev.NoticesKept

/-- Of the settings in use the device settings (the scheduler marks, the low mark and the device report set) change
only at a reset or a load; the image changes only when a save completes; the clock only by its advance, by one modulo
2^48, and at a reset (R181, R185). -/
def Obligations.SettingsAndClockChangeOnlyByTheirCommands : Prop :=
  ∀ (c : Instr) (s t : State), exec c s = .next t →
    (c ≠ .powerOnReset → c ≠ .loadComplete → (∀ p, c ≠ .deviceRestart p) →
      t.dev.engine.marks = s.dev.engine.marks ∧ t.dev.keys.lowMark = s.dev.keys.lowMark
        ∧ t.dev.deviceReport = s.dev.deviceReport)
      ∧ (c ≠ .saveComplete → t.dev.image = s.dev.image)
      ∧ (c ≠ .powerOnReset → (∀ p, c ≠ .deviceRestart p) →
        t.dev.clock = if c = .deviceClockAdvance then s.dev.clock + 1 else s.dev.clock)

/-- What an event's end leaves unchanged where nothing is left to settle: all but the monitor bank, the device latches
and the operations port's notices; and where no monitor is an EDGE monitor and no freeze is due, nothing at all
(R102, R164, R166). -/
def Obligations.QuietEventsEndInTheBank : Prop :=
  ∀ d : Device, d.Quiet →
    d.finish = d.closeEvent ∧ d.SameButBank d.closeEvent
      ∧ ((∀ m ∈ d.bank.monitors, m.mode ≠ .edge) → d.bank.freezeDue = false → d.closeEvent = d)

/-- The requests that store nothing and free nothing leave every byte of the frame store, the clock, the image, the
work queues and the frame in work unchanged: the claim, the reads, PROMOTE, RETIRE_PREVIOUS, DISCARD_NEXT,
OPEN_TUNNEL, SET_HOLDS, WRITE_PROFILE, ACK_FAULT, STOP_PROOF, WRITE_PATTERN, the requests to the bank and
SAVE_SETTINGS, where nothing is left to settle and no tunnel waits for a retry proof, which they could start. -/
def Obligations.RequestsThatStoreNothing : Prop :=
  ∀ (c : Instr) (s t : State) (p : Port) (code : Nat),
    requestTaken c = some (p, code) →
    code ∈ [1, 5, 8, 9, 10, 11, 12, 14, 15, 16, 17, 18, 19, 20, 21, 23, 25, 26, 27, 28, 29, 30, 31, 32] →
    s.dev.Quiet → s.dev.proofs.retry = [] → exec c s = .next t →
      (∀ a, t.dev.store.bytes.read a = s.dev.store.bytes.read a)
        ∧ t.dev.clock = s.dev.clock ∧ t.dev.image = s.dev.image ∧ t.dev.engine = s.dev.engine
        ∧ (code ≠ 1 → t.dev.store = s.dev.store)

/-! ### The port windows -/

/-- PORT_WINDOW_WRITE of an aligned word: below 01Ch it is stored in the assembly buffer at its place; the last word
posts; a write of the cell window is that access; anywhere else it is ignored (R171, R172). -/
def Obligations.WindowWritesReachTheirArea : Prop :=
  ∀ (s : State) (p : Port) (off : Nat) (w : BusWord), off < 0x100000 → off % 4 = 0 →
    let x := s.dev.port p
    exec (.portWindowWrite p off w) s =
      if off < 0x1C then
        s.to (s.dev.setPort p { x with buffer := x.buffer.take off ++ beBytes 4 w.toNat ++ x.buffer.drop (off + 4) })
      else if off = 0x1C then exec (.requestPost p w) s
      else if 0x80000 ≤ off ∧ p ≠ .operations then exec (.cellWindowAccess p off (some w)) s
      else .next s

/-- REQUEST_POST: the buffer with the last word is posted as a record: to the tail of a request queue of fewer than 16,
otherwise it is discarded and OVERRUN is set; the buffer becomes zeros.  A record whose code is PORT_RESET is that reset
(R172, R178). -/
def Obligations.PostsJoinTheRequestQueue : Prop :=
  ∀ (s : State) (p : Port) (w : BusWord),
    let x := s.dev.port p
    let record := x.buffer.take 0x1C ++ beBytes 4 w.toNat ++ x.buffer.drop 0x20
    let q := Request.ofRecord record
    exec (.requestPost p w) s =
      if q.code = 34 then exec (.portReset p q.tag) s
      else if x.requests.length < 16 then
        s.to (s.dev.setPort p { x with buffer := List.replicate 32 0, requests := x.requests ++ [record] })
      else s.to (s.dev.setPort p { x with buffer := List.replicate 32 0, overrun := true })

/-- RESPONSE_READ and NOTICE_READ: a read of the area returns the word of the head record, or zeros on an empty queue;
the word at 03Ch removes the head record, the word at 05Ch the head notice; an area marked write and an offset outside
the areas read zeros.  The removal of a notice lets a waiting proof attempt its frame on the traffic port, offers one
waiting key flag on the key port, and offers one waiting fault and makes the retry start test on the operations port
(R92, R132, R141, R144, R171, R175, R177).  A response record's header holds what R175 gives, statuses and outcomes by
their places in its lists; a notice record holds the header of R177 and then the fields that R100, R91, R113, R133 and
R149 list, in their order.  The kind that R6 gives a DIALOGUE_IN notice comes first (log 36).
The bytes of bodies and fields are free values (logs 2 and 3). -/
def Obligations.ReadsShowTheHeads : Prop :=
  (∀ (s : State) (p : Port) (off : Nat), off % 4 = 0 →
    let x := s.dev.port p
    let responseArea := match x.responses with
      | r :: _ => r.bytes
      | [] => List.replicate 32 0
    let noticeArea := match x.notices with
      | n :: _ => n.bytes
      | [] => List.replicate 32 0
    (0x20 ≤ off → off < 0x40 →
      exec (.responseRead p off) s =
        s.to (s.dev.setPort p
          { x with bus := wordOf (slice responseArea (off - 0x20) 4)
                   responses := if off = 0x3C then x.responses.tail else x.responses }))
      ∧ (off < 0x20 ∨ (0x64 ≤ off ∧ off < 0x100000 ∧ (off < 0x80000 ∨ p = .operations)) →
        exec (.responseRead p off) s = s.to (s.dev.setPort p { x with bus := 0 }))
      ∧ (0x40 ≤ off → off < 0x60 →
        let y := { x with bus := wordOf (slice noticeArea (off - 0x40) 4) }
        exec (.noticeRead p off) s =
          if off ≠ 0x5C ∨ x.notices = [] then s.to (s.dev.setPort p y)
          else
            let d := s.dev.setPort p { y with notices := x.notices.tail }
            match p with
            | .traffic => s.to { d with buildDue := true }.finish
            | .key => s.to (d.keyFlagScan 1).finish
            | .operations => s.to ((d.faultScan 1).retryStartTest).finish))
    ∧ (∀ r : ResponseRecord,
      r.bytes.length = 32
        ∧ (r.index = 0 → r.bytes.take 6 =
          beBytes 2 r.response.tag.toNat ++ beBytes 1 r.response.code ++ beBytes 1 r.response.status.code
            ++ beBytes 1 r.response.result.code ++ beBytes 1 r.records)
        ∧ (r.index ≠ 0 → r.bytes.take 4 =
          beBytes 2 r.response.tag.toNat ++ beBytes 1 r.response.code ++ beBytes 1 r.index))
    ∧ (∀ st : Status,
      [Status.done, .wrongPort, .badRequest, .noTunnel, .notOwner, .tooFewCells, .queueFull, .noticeFull, .noCells,
        .wrongState, .shopInUse, .slotBusy, .epochConflict, .keystoreFull, .deriveFull, .noSuchEpoch, .proofBusy, .busy,
        .tunnelClosed][st.code]? = some st)
    ∧ (∀ o : Result,
      [Result.none, .sent, .handed, .discarded, .accepted, .consumed, .diverted, .dialogueDropped, .tunnelClosed,
        .notInService, .outboundHeld, .inboundHeld, .keyUnusable, .malformed, .epochMiss, .authFail, .replay, .promoted,
        .alreadyCurrent, .retired, .retirePending, .cleared, .notSet, .frozen, .alreadyFrozen, .counting,
        .alreadyCounting][o.code]? = some o)
    ∧ ∀ n : Notice,
      let told : Nat × List NoticeField := match n.body with
        | .generated by_ kind epoch sequence size cells =>
          (1, [.producer by_, .frameKind kind, .epoch epoch, .sequence sequence, .frameSize size, .cells cells])
        | .renewalDue epoch slot why count age =>
          (2, [.epoch epoch, .slot slot, .renewalReason why, .outCount count, .age age])
        | .keyExpired epoch slot why count => (3, [.epoch epoch, .slot slot, .expiredReason why, .outCount count])
        | .keyFollowed epoch slot previous => (4, [.epoch epoch, .slot slot, .becamePrevious previous])
        | .dialogueIn kind epoch sequence length cells =>
          (5, [.frameKind kind, .epoch epoch, .sequence sequence, .payloadLength length, .cells cells])
        | .tunnelFault kind l state =>
          (6, [.target n.tunnel, .tunnelKind kind, .latchStamp l.stamp, .observed l.observed, .detail l.detail,
            .isolated l.isolated, .tunnelState (some state)])
        | .deviceFault kind l =>
          (6, [.target none, .deviceKind kind, .latchStamp l.stamp, .observed l.observed, .detail l.detail,
            .isolated l.isolated, .tunnelState none])
        | .proofDone purpose mode result cause completed sent misses strays capture state retries =>
          (7, [.purpose purpose, .proofMode mode, .result result, .abortCause cause, .completed completed, .sent sent,
            .misses misses, .strays strays, .capture capture, .tunnelState (some state), .retryCount retries])
      let fields := told.2.flatMap Config.fieldBytes
      n.bytes.length = 32
        ∧ n.bytes.take 9 = beBytes 1 told.1 ++ beBytes 2 (n.tunnel.getD 0xFFFF) ++ beBytes 6 n.stamp.toNat
        ∧ ∀ i, i < 23 → i < fields.length → n.bytes[9 + i]? = fields[i]?

/-- STATUS_READ: the word returned holds each field as it stands, with every other bit zero, and RESTARTED, OVERRUN and
ACCESS_FAULT are cleared (R176).  That bit 0 of the word is its least significant bit is the model's choice (log 42).
The counts lie in their ranges by StepsKeepQueuesWithinCapacity,
StepsKeepAPlaceForEveryResponse and StepsKeepGeneratedPlaces. -/
def Obligations.StatusReadsClearThreeLatches : Prop :=
  ∀ (s : State) (p : Port),
    (s.dev.port p).requests.length ≤ 16 → (s.dev.port p).responses.length ≤ 32 →
    (s.dev.port p).notices.length ≤ 128 →
      let x := s.dev.port p
      ∃ w : BusWord,
        exec (.statusRead p) s =
          s.to (s.dev.setPort p { x with bus := w, restarted := false, overrun := false, accessFault := false })
        ∧ w.getLsbD 0 = x.ready ∧ w.getLsbD 1 = x.restarted ∧ w.getLsbD 2 = x.overrun ∧ w.getLsbD 3 = x.accessFault
        ∧ (w.extractLsb' 4 4).toNat = 0 ∧ (w.extractLsb' 8 5).toNat = 16 - x.requests.length
        ∧ (w.extractLsb' 13 3).toNat = 0 ∧ (w.extractLsb' 16 6).toNat = x.responses.length
        ∧ (w.extractLsb' 22 2).toNat = 0 ∧ (w.extractLsb' 24 8).toNat = x.notices.length

/-- CELL_WINDOW_ACCESS of an aligned word: where the cell is CLAIMED or DONE and owned by the port, a write stores its
four bytes and no other byte of the store changes, and a read returns the four bytes.  The same holds, without
ACCESS_FAULT, where the access meets a completion that frees the cell or passes it to the other port (row 3 of R23), for
a write where the cell is IN_WORK, since a write to a QUEUED cell is ignored (R4).  It meets one where the next command
is one in whose event frames complete (the completion of the frame in work, that of a derivation job, a CLOSE_TUNNEL), a
frame that the port submitted, waiting or in work, holds the cell before it and none does after it, and the cell is then
not the port's (what meets what is log 40).  The frame that holds the cell stands as it was submitted.  In every other
case a write is ignored, a read returns zeros, and ACCESS_FAULT is set.  The operations port has no cell window (R22,
R23, R171). -/
def Obligations.CellWindowReachesOwnedCellsOnly : Prop :=
  ∀ (s : State) (p : Port) (off : Nat) (w : BusWord), off % 4 = 0 → 0x80000 ≤ off → off < 0x100000 →
    let x := s.dev.port p
    let a := off - 0x80000
    let mine (d : Device) : Prop :=
      let state := (d.store.cell (a / 256)).state
      (p = .traffic ∧ (state = .claimed .traffic ∨ state = .done .traffic))
        ∨ (p = .key ∧ (state = .claimed .key ∨ state = .done .key))
    let held (d : Device) : Prop := ∃ f ∈ d.engine.held, a / 256 ∈ f.cells
      ∧ ((f.party = .trafficPort ∧ p = .traffic) ∨ (f.party = .keyPort ∧ p = .key))
    let meets : Prop := ∃ c t, s.pending.head? = some c
      ∧ (c = .outboundCompletion ∨ c = .inboundCompletion ∨ c = .derivationComplete ∨ ∃ o, c = .closeTunnel o)
      ∧ exec c s = .next t ∧ held s.dev ∧ ¬ held t.dev ∧ ¬ mine t.dev
    let stores : Prop := mine s.dev ∨ ((s.dev.store.cell (a / 256)).state = .inWork ∧ meets)
    let answers : Prop := mine s.dev ∨ meets
    (stores → ∃ bytes : Memory,
      exec (.cellWindowAccess p off (some w)) s = s.to { s.dev with store := { s.dev.store with bytes := bytes } }
        ∧ (∀ i, i < 4 → bytes.read (a + i) = (beBytes 4 w.toNat).getD i 0)
        ∧ ∀ k, k < a ∨ a + 4 ≤ k → bytes.read k = s.dev.store.bytes.read k)
      ∧ (answers → exec (.cellWindowAccess p off none) s = s.to (s.dev.setPort p { x with
        bus := wordOf [s.dev.store.bytes.read a, s.dev.store.bytes.read (a + 1), s.dev.store.bytes.read (a + 2),
          s.dev.store.bytes.read (a + 3)] }))
      ∧ (¬ stores → p ≠ .operations →
        exec (.cellWindowAccess p off (some w)) s = s.to (s.dev.setPort p { x with accessFault := true }))
      ∧ (¬ answers → p ≠ .operations →
        exec (.cellWindowAccess p off none) s = s.to (s.dev.setPort p { x with bus := 0, accessFault := true }))
      ∧ (p = .operations →
        exec (.cellWindowAccess p off (some w)) s = .next s
        ∧ exec (.cellWindowAccess p off none) s = s.to (s.dev.setPort p { x with bus := 0 }))

/-- PORT_RESET: the port's queues, reserved places, OVERRUN, ACCESS_FAULT and buffer are emptied, READY and RESTARTED
stand; the effects of R179 are made in the other blocks: on the traffic and key ports the owned cells are freed and
every queued frame of the port, and one in work, is orphaned; on the traffic port every reserved GENERATED place is
given up and its frame's announcement lost (R96), and a place freed lets a waiting proof attempt its frame (R144); on
the key port the jobs owe no response and every reported key flag becomes unreported, to be offered at the event's
end (R53, R91, R92; log 15); on the operations port the closings and the save owe no response, every reported latch
becomes unreported, and the emptied notice queue is refilled by scan (R134), with the proof engine and the retry
queue as they stood: no retry start test is made (R141, R142, R179; log 41).  A flag or latch that stands at no,
unreported or silent stands.  The response is queued with the number of requests discarded and of cells freed (R29,
R178, R179). -/
def Obligations.PortResetEmptiesItsPort : Prop :=
  ∀ (s : State) (p : Port) (tag : BitVec 16),
    let x := s.dev.port p
    let d := s.dev.setPort p { x with
      buffer := List.replicate 32 0, requests := [], responses := [], reserved := 0, notices := []
      overrun := false, accessFault := false }
    let owned (o : Owner) : List Nat :=
      (d.store.cells.filter fun e => decide (e.2.state = .claimed o ∨ e.2.state = .done o)).map (·.1)
    let freed : List Nat := match p with
      | .traffic => owned .traffic
      | .key => owned .key
      | .operations => []
    let orphaned (by_ : Party) (f : Frame) : Frame := { f with orphan := f.orphan || decide (f.party = by_) }
    let silenced (f : Frame) : Frame :=
      { orphaned .trafficPort f with reserved := false, lost := f.lost || f.reserved }
    let every (mark : Frame → Frame) : Engine :=
      { d.engine with
        control := d.engine.control.map mark, settle := d.engine.settle.map mark, bulk := d.engine.bulk.map mark
        inWork := d.engine.inWork.map fun w => { w with frame := mark w.frame } }
    let untold (k : KeyRecord) : KeyRecord :=
      { k with
        renewal := match k.renewal with
          | .reported why => .unreported why
          | .unreported why => .unreported why
          | .no => .no
        expired := match k.expired with
          | .reported why => .unreported why
          | .unreported why => .unreported why
          | .no => .no
        followed := match k.followed with
          | .reported epoch => .unreported epoch
          | .unreported epoch => .unreported epoch
          | .no => .no }
    let unreport (l : Latch) : Latch :=
      { l with report := match l.report with
        | .reported => .unreported
        | .unreported => .unreported
        | .silent => .silent }
    let reset : Device := match p with
      | .traffic =>
        { d with
          engine := every silenced
          buildDue := d.buildDue || (!x.notices.isEmpty || decide (0 < s.dev.generatedReserved)) }.freeCells
            (owned .traffic)
      | .key =>
        let e : Device := { d.freeCells (owned .key) with
          engine := every (orphaned .keyPort)
          keys := { d.keys with jobs := d.keys.jobs.map fun j => { j with owed := none } } }
        e.modTunnels fun r =>
          { r with next := r.next.map fun n => { n with key := untold n.key }
                   current := r.current.map fun c => { c with key := untold c.key }
                   previous := r.previous.map untold }
      | .operations =>
        let e : Device := { d with
          faults :=
            ⟨d.faults.keystoreLow.map unreport, d.faults.reserveExhausted.map unreport,
              d.faults.monitorOverflow.map unreport, d.faults.settingsDefaulted.map unreport⟩
          saving := d.saving.map fun v => { v with owed := none } }
        (e.modTunnels fun r =>
          let l := r.condition.latches
          { r with closeTag := none
                   condition := { r.condition with latches :=
                    ⟨l.authStorm.map unreport, l.replayStorm.map unreport, l.epochDrift.map unreport,
                      l.shopSilent.map unreport, l.keyExpired.map unreport, l.proofFailed.map unreport,
                      l.tunnelFailed.map unreport⟩ } }).faultScan 128
    exec (.portReset p tag) s =
      s.to ((reset.modPort p fun y =>
        { y with responses := y.responses
            ++ [⟨⟨tag, 34, .done, .none, .portReset x.requests.length freed.length⟩, 0, 1⟩] }).finish)

/-- The head of a request queue waits while the port is not READY or the places it needs cannot be reserved; a
request that is taken is put to the common tests in their order, and the first that fails gives the refusal, with
nothing else changed (R173).  DEVICE is bit 0 of the flags, the least significant one (log 42).  An unknown code is
refused BAD_REQUEST; that it takes one place is log 22.  With no request in the queue the taking cannot occur, and the
model changes nothing (log 6).  The request is what the record's bytes spell (R172); the places are the catalogue's
(11.7).  A taking removes the head and reserves its places; an answer gives them back and queues the records of one
response with the request's tag and code, numbered in order, one where the body is empty (R173, R175; how many records
another body takes is log 2). -/
def Obligations.CommonTestsComeFirst : Prop :=
  (∀ (c : Instr) (s : State) (p : Port) (code : Nat) (row : CatalogueRow),
    requestTaken c = some (p, code) → catalogue code = some row →
      ((s.dev.port p).ready = false ∨ (s.dev.port p).requests = []
          ∨ 32 < (s.dev.port p).responses.length + (s.dev.port p).reserved + row.places →
        exec c s = .next s)
      ∧ ∀ q : Request, s.dev.Offers p q row.places → q.code = code →
        let toDevice := q.code = 19 ∧ q.flags = 1
        (p ∉ row.ports → exec c s = s.to (s.dev.answered p q (.refusal .wrongPort)))
        ∧ (p ∈ row.ports → q.flags ≠ 0 → ¬ toDevice → exec c s = s.to (s.dev.answered p q (.refusal .badRequest)))
        ∧ (p ∈ row.ports → q.flags = 0 → row.namesTunnel = true → 480 ≤ q.tunnel →
          exec c s = s.to (s.dev.answered p q (.refusal .noTunnel))))
    ∧ (∀ (s : State) (p : Port) (q : Request),
      s.dev.Offers p q 1 → catalogue q.code = none →
        exec (.unknownRequestCode p) s = s.to (s.dev.answered p q (.refusal .badRequest)))
    ∧ (∀ record : List Byte, record.length = 32 →
      let b (i : Nat) : Nat := (record.getD i 0).toNat
      let q := Request.ofRecord record
      q.tag.toNat = b 0 * 256 + b 1 ∧ q.code = b 2 ∧ q.flags = b 3 ∧ q.tunnel = b 4 * 256 + b 5
        ∧ q.operands = record.drop 6)
    ∧ (let rows : List (List Nat × CatalogueRow) :=
        [([1], ⟨[.traffic, .key], 2, false⟩), ([2], ⟨[.traffic, .key], 1, false⟩), ([3, 4, 5], ⟨[.traffic], 1, true⟩),
          ([6, 7, 8, 10, 11], ⟨[.key], 1, true⟩), ([9], ⟨[.key], 4, true⟩),
          ([12, 13, 14, 19, 22, 24], ⟨[.operations], 1, true⟩), ([15], ⟨[.operations], 2, true⟩),
          ([20], ⟨[.operations], 4, true⟩), ([16, 23, 25, 27, 28, 29, 30, 32], ⟨[.operations], 1, false⟩),
          ([17, 18, 21], ⟨[.operations], 2, false⟩), ([26], ⟨[.operations], 4, false⟩),
          ([31], ⟨[.operations], 8, false⟩), ([33], ⟨[.operations], 0, false⟩)]
      (∀ r ∈ rows, ∀ code ∈ r.1, catalogue code = some r.2)
        ∧ ∀ code, code = 0 ∨ 33 < code → catalogue code = none)
    ∧ ∀ (d : Device) (p : Port) (q : Request) (r : Reply) (places : Nat),
      (∃ row, catalogue q.code = some row ∧ row.places = places) ∨ (catalogue q.code = none ∧ places = 1) →
        d.taken p q.code = d.modPort p (fun x =>
          { x with requests := x.requests.tail, reserved := x.reserved + places })
        ∧ d.answered p q r = (d.taken p q.code).respond p q r
        ∧ ∃ count,
          d.respond p q r = d.modPort p (fun x =>
            { x with
              reserved := x.reserved - places
              responses := x.responses ++ (List.range count).map fun i =>
                ⟨⟨q.tag, q.code, r.status, r.result, r.body⟩, i, count⟩ })
          ∧ 1 ≤ count ∧ (r.body = .empty → count = 1)
          ∧ (∀ cells, r.body = .cells cells → count = if cells.length ≤ 13 then 1 else 2)
          ∧ ((∀ cells, r.body ≠ .cells cells) → count ≤ max 1 places)

/-! ### Cells -/

/-- CLAIM_CELLS: a count outside 1..16 is refused BAD_REQUEST; while the pool's charge plus the count is within its
limit, the lowest FREE cells are granted whole, CLAIMED by the port and charged to the pool; otherwise NO_CELLS with
the pool's headroom, no cell changed, and one "claims refused" event (R16, R17, R31).  Operand positions: the model's
(log 1). -/
def Obligations.ClaimsAreGrantedWhole : Prop :=
  ∀ (s : State) (p : Port) (q : Request) (owner : Owner) (pool : Pool),
    (p = .traffic ∧ owner = .traffic ∧ pool = .regular) ∨ (p = .key ∧ owner = .key ∧ pool = .reserved) →
    s.dev.Poses p q 1 →
      let n := q.num 0 1
      let limit := match pool with
        | .regular => 1792
        | .reserved => 256
      let d := s.dev.taken p 1
      exec (.claimCells p) s =
        if n < 1 ∨ 16 < n then s.to (d.respond p q (.refusal .badRequest))
        else if s.dev.store.charged pool + n ≤ limit then
          let cells := s.dev.store.lowestFree n
          s.to ({ d with store := s.dev.store.take pool (.claimed owner) cells }.respond p q
            ⟨.done, .none, .cells cells⟩).finish
        else
          s.to ((d.give .claimsRefused none).respond p q
            ⟨.noCells, .none, .headroom (limit - s.dev.store.charged pool)⟩).finish

/-- A grant that the pool has room for, in a store in order: `n` cells, all FREE before, in ascending order, no FREE
cell with a lower number passed over; each becomes as asked, charged to the pool; no other cell and no byte changes; the
pool's charge rises by `n`; and FREE cells are 2048 less the two charges (R15, R16, R17). -/
def Obligations.GrantsTakeTheLowestFreeCells : Prop :=
  ∀ (c : CellStore) (pool : Pool) (st : CellState) (n : Nat),
    c.Ok → c.charged pool + n ≤ pool.limit → st ≠ .free →
      let cells := c.lowestFree n
      let c' := c.take pool st cells
      cells.length = n ∧ cells.Pairwise (· < ·) ∧ (∀ k ∈ cells, k < 2048 ∧ (c.cell k).state = .free)
        ∧ (∀ k j, k ∈ cells → j < k → (c.cell j).state = .free → j ∈ cells)
        ∧ (∀ k, c'.cell k = if k ∈ cells then ⟨st, some pool⟩ else c.cell k) ∧ c'.bytes = c.bytes
        ∧ (∀ r, c'.charged r = c.charged r + if r = pool then n else 0)
        ∧ c.freeCount = 2048 - c.charged .regular - c.charged .reserved

/-- RELEASE_CELLS: a list that is empty, longer than 12, out of range or with a cell twice is refused BAD_REQUEST;
one with a cell that is not CLAIMED or DONE and owned by the port is refused NOT_OWNER with nothing changed;
otherwise every listed cell becomes FREE and uncharged and is wiped, and no other cell and no other byte changes
(R18, R21).  A cell freed that was charged to the reserved pool makes an attempt of a waiting proof due in the event
(R144); nothing else of the part changes.  Operand positions: the model's (log 1). -/
def Obligations.ReleasesFreeAndWipe : Prop :=
  (∀ (s : State) (p : Port) (q : Request) (owner : Owner),
    (p = .traffic ∧ owner = .traffic) ∨ (p = .key ∧ owner = .key) → s.dev.Poses p q 2 →
      let cells := q.numbers 0
      let d := s.dev.taken p 2
      exec (.releaseCells p) s =
        if q.num 0 1 < 1 ∨ 12 < q.num 0 1 ∨ (∃ n ∈ cells, 2048 ≤ n) ∨ ¬ cells.Nodup then
          s.to (d.respond p q (.refusal .badRequest))
        else if ∃ n ∈ cells, (s.dev.store.cell n).state ≠ .claimed owner ∧ (s.dev.store.cell n).state ≠ .done owner then
          s.to (d.respond p q (.refusal .notOwner))
        else s.to ((d.freeCells cells).respond p q ⟨.done, .none, .empty⟩).finish)
    ∧ ∀ (d : Device) (cells : List Nat),
      (∀ k, (d.freeCells cells).store.cell k = if k ∈ cells then ⟨.free, none⟩ else d.store.cell k)
        ∧ (∀ a, (d.freeCells cells).store.bytes.read a = if a / 256 ∈ cells then 0 else d.store.bytes.read a)
        ∧ ((d.freeCells cells).buildDue = true ↔
          d.buildDue = true ∨ ∃ n ∈ cells, (d.store.cell n).charge = some .reserved)
        ∧ { d.freeCells cells with store := d.store, buildDue := d.buildDue } = d

/-- A frame laid in cells: byte j of the bytes given stands in the listed cell at position j / 256, at offset j mod 256,
every later byte of every listed cell is zero, and no other byte of the store and no cell's state changes (R6). -/
def Obligations.FramesAreLaidInCellOrder : Prop :=
  ∀ (c : CellStore) (cells : List Nat) (bytes : List Byte),
    cells.Nodup → bytes.length ≤ cells.length * 256 →
      let c' := c.lay cells bytes
      (∀ j, j < cells.length * 256 → c'.bytes.read (cells.getD (j / 256) 0 * 256 + j % 256) = bytes.getD j 0)
        ∧ (∀ a, a / 256 ∉ cells → c'.bytes.read a = c.bytes.read a) ∧ c'.cells = c.cells

/-! ### Frames -/

/-- SEND_FRAME: the tests in their order (R1, R24, R97); on acceptance the cells become QUEUED, the frame, with the
payload they then hold (R23; log 40), joins the tail of the named queue, queued now, the tunnel's frame count rises
by one, and the mark test of R104 is made for SETTLE.  Operand positions: the model's (log 1). -/
def Obligations.SendFrameQueuesADataFrame : Prop :=
  ∀ (s : State) (q : Request), s.dev.Poses .traffic q 3 →
    let class_ := q.num 0 1
    let k : Queue := if class_ = 0 then .settle else .bulk
    let length := q.num 1 2
    let count := q.num 3 1
    let cells := q.numbers 3
    let d := s.dev.taken .traffic 3
    let f : Frame := ⟨.trafficPort, q.tag, q.tunnel, .outbound .data, cells, s.dev.store.readSeq cells 0 length,
      s.dev.clock, false, false, false, none⟩
    let placed : Device :=
      { d with store := d.store.pass .queued cells, engine := d.engine.setQueue k (d.engine.queue k ++ [f]) }.modTunnel
        q.tunnel fun x => { x with frameCount := x.frameCount + 1 }
    exec (.sendFrame .traffic) s =
      if 1 < class_ ∨ 1472 < length ∨ count < 1 ∨ 6 < count ∨ (∃ n ∈ cells, 2048 ≤ n) ∨ ¬ cells.Nodup then
        s.to (d.respond .traffic q (.refusal .badRequest))
      else if ∃ n ∈ cells, (s.dev.store.cell n).state ≠ .claimed .traffic then
        s.to (d.respond .traffic q (.refusal .notOwner))
      else if cells.length < (length + 32 + 255) / 256 then s.to (d.respond .traffic q (.refusal .tooFewCells))
      else if (if class_ = 0 then 384 else 576) ≤ (s.dev.engine.queue k).length then
        s.to (d.respond .traffic q (.refusal .queueFull))
      else s.to (if class_ = 0 then placed.entryTest else placed).finish

/-- RECEIVE_FRAME: the tests in their order (R1, R24, R98); the queue is CONTROL where byte 1 of the first cell is 2
to 5, otherwise the class named (R4); on acceptance as for a send, the frame being the bytes its cells then hold,
with no notice place reserved.  Operand positions: the model's (log 1). -/
def Obligations.ReceiveFrameQueuesByKind : Prop :=
  ∀ (s : State) (q : Request), s.dev.Poses .traffic q 4 →
    let class_ := q.num 0 1
    let size := q.num 1 2
    let count := q.num 3 1
    let cells := q.numbers 3
    let kind := s.dev.store.bytes.read (cells.getD 0 0 * 256 + 1)
    let k : Queue :=
      if 2 ≤ kind.toNat ∧ kind.toNat ≤ 5 then .control else if class_ = 0 then .settle else .bulk
    let room := match k with
      | .control => 64
      | .settle => 384
      | .bulk => 576
    let d := s.dev.taken .traffic 4
    let f : Frame := ⟨.trafficPort, q.tag, q.tunnel, .inbound kind, cells, s.dev.store.readSeq cells 0 size,
      s.dev.clock, false, false, false, none⟩
    let placed : Device :=
      { d with store := d.store.pass .queued cells, engine := d.engine.setQueue k (d.engine.queue k ++ [f]) }.modTunnel
        q.tunnel fun x => { x with frameCount := x.frameCount + 1 }
    exec (.receiveFrame .traffic) s =
      if 1 < class_ ∨ size < 32 ∨ 1504 < size ∨ count < 1 ∨ 6 < count ∨ (∃ n ∈ cells, 2048 ≤ n) ∨ ¬ cells.Nodup then
        s.to (d.respond .traffic q (.refusal .badRequest))
      else if ∃ n ∈ cells, (s.dev.store.cell n).state ≠ .claimed .traffic then
        s.to (d.respond .traffic q (.refusal .notOwner))
      else if cells.length < (size + 255) / 256 then s.to (d.respond .traffic q (.refusal .tooFewCells))
      else if room ≤ (s.dev.engine.queue k).length then s.to (d.respond .traffic q (.refusal .queueFull))
      else s.to (if k = .settle then placed.entryTest else placed).finish

/-- SEND_DIALOGUE: the tests in their order, the cells owned by the key port, CONTROL's room, then a GENERATED place
on the traffic port (R24, R99, R100); on acceptance the frame, with the payload its cells then hold (R23; log 40), joins
CONTROL with the place reserved.  Operand positions: the model's (log 1). -/
def Obligations.SendDialogueReservesAPlace : Prop :=
  ∀ (s : State) (q : Request), s.dev.Poses .key q 6 →
    let length := q.num 0 2
    let count := q.num 2 1
    let cells := q.numbers 2
    let d := s.dev.taken .key 6
    let f : Frame := ⟨.keyPort, q.tag, q.tunnel, .outbound .dialogue, cells, s.dev.store.readSeq cells 0 length,
      s.dev.clock, true, false, false, none⟩
    exec (.sendDialogue .key) s =
      if 1472 < length ∨ count < 1 ∨ 6 < count ∨ (∃ n ∈ cells, 2048 ≤ n) ∨ ¬ cells.Nodup then
        s.to (d.respond .key q (.refusal .badRequest))
      else if ∃ n ∈ cells, (s.dev.store.cell n).state ≠ .claimed .key then s.to (d.respond .key q (.refusal .notOwner))
      else if cells.length < (length + 32 + 255) / 256 then s.to (d.respond .key q (.refusal .tooFewCells))
      else if 64 ≤ s.dev.engine.control.length then s.to (d.respond .key q (.refusal .queueFull))
      else if 64 ≤ s.dev.traffic.notices.length + s.dev.generatedReserved then
        s.to (d.respond .key q (.refusal .noticeFull))
      else
        s.to ({ d with
          store := d.store.pass .queued cells
          engine := { d.engine with control := d.engine.control ++ [f] } }.modTunnel q.tunnel
            fun x => { x with frameCount := x.frameCount + 1 }).finish

/-- A SEND_FRAME accepted by an IDLE engine with nothing else waiting and no proof running, on an IN_SERVICE tunnel
with no outbound cause and an ACTIVE key: in the same event the frame enters work, its cells IN_WORK, bound to the
CURRENT key with the next sequence number, the key's count raised and its mark set, its state SPENT with KEY_SPENT
added where the count reaches the hard frame limit; the work queues are empty and the frame count has risen (R82,
R83, R95, R97, R102).  Operand positions: the model's (log 1). -/
def Obligations.AnIdleEngineTakesTheFrameAtOnce : Prop :=
  ∀ (s : State) (q : Request) (k : KeyRecord),
    s.dev.Poses .traffic q 3 → s.dev.Quiet → s.dev.engine.inWork = none → s.dev.proofs.running = none →
    q.num 0 1 ≤ 1 → q.num 1 2 ≤ 1472 →
    1 ≤ q.num 3 1 → q.num 3 1 ≤ 6 → (q.numbers 3).Nodup → (q.num 1 2 + 32 + 255) / 256 ≤ (q.numbers 3).length →
    (∀ n ∈ q.numbers 3, n < 2048 ∧ (s.dev.store.cell n).state = .claimed .traffic) →
    (s.dev.tunnel q.tunnel).state = .inService → (s.dev.tunnel q.tunnel).outCauses = ⟨false, false, false⟩ →
    (s.dev.tunnel q.tunnel).current = some ⟨.active, k⟩ → k.retirePending = false →
      ∃ t w k', exec (.sendFrame .traffic) s = .next t
        ∧ t.dev.engine.inWork = some w ∧ w.sequence = k.outCount + 1 ∧ w.entry = k.entry
        ∧ w.frame.tunnel = q.tunnel ∧ w.frame.cells = q.numbers 3
        ∧ w.frame.content = s.dev.store.readSeq (q.numbers 3) 0 (q.num 1 2)
        ∧ t.dev.engine.control = [] ∧ t.dev.engine.settle = [] ∧ t.dev.engine.bulk = []
        ∧ (∀ n ∈ q.numbers 3, (t.dev.store.cell n).state = .inWork)
        ∧ (t.dev.tunnel q.tunnel).frameCount = (s.dev.tunnel q.tunnel).frameCount + 1
        ∧ k'.outCount = k.outCount + 1 ∧ k'.bound = true
        ∧ (let spent := decide ((s.dev.profileOf q.tunnel).hardFrames ≤ k.outCount + 1)
           (t.dev.tunnel q.tunnel).current = some ⟨if spent then .spent else .active, k'⟩
             ∧ (t.dev.tunnel q.tunnel).outCauses = ⟨false, spent, false⟩)

/-! ### Takes -/

/-- The checks on a frame taken, in order.  Outbound: the state, the hold causes for DATA, the CURRENT key ACTIVE and
not retire pending.  Inbound: the parse of the bytes submitted (R23; log 40), the state, the inbound causes for DATA,
then the epoch lookup among CURRENT, PREVIOUS and NEXT, which selects a slot (R11, R35, R76, R108, R111).  What the
take then makes of the frame: one that passes enters work with its cells IN_WORK and its key bound; one that fails
completes at once with the outcome, its tunnel's frame count one lower.  A failed outbound frame of a master is
answered, its cells DONE to the master as submitted, its GENERATED place freed; an orphan's cells are freed; a
keepalive's or proof frame's cells are freed and its builder told.  A failed inbound frame's cells are freed, the
traffic port answered, the outcome counted and given to the bank as R115, R116 and R121 list it (R26, R27, R28, R110,
R111, R118).  That passing leaves a FREE cell FREE is log 34. -/
def Obligations.ChecksAtTakeDecideInOrder : Prop :=
  (∀ (d : Device) (t : Nat) (kind : FrameKind),
    let x := d.tunnel t
    d.outboundCheck t kind =
      if x.state = .closing then some .tunnelClosed
      else if ¬ (x.state = .inService ∨ (x.state = .isolated ∧ kind ≠ .data)) then some .notInService
      else if kind = .data ∧ x.outCauses ≠ ⟨false, false, false⟩ then some .outboundHeld
      else if x.current.any fun c => decide (c.state = .active ∧ c.key.retirePending = false) then none
      else some .keyUnusable)
    ∧ ∀ (d : Device) (f : Frame),
      let x := d.tunnel f.tunnel
      let h := Header.ofBytes (slice f.content 0 16)
      let told : Body := .inbound h.kind h.epoch h.sequence
      let parses := h.format = 3 ∧ 1 ≤ h.kind ∧ h.kind ≤ 5 ∧ h.direction = 2
        ∧ x.shop.map (·.toNat) = some h.shop ∧ h.length + 32 = f.size
        ∧ (if h.kind = 3 ∨ h.kind = 4 then h.index ≤ 7 else h.index = 0)
      let open_ := x.state = .inService ∨ (x.state = .isolated ∧ h.kind ≠ 1)
        ∨ ((x.state = .provisioned ∨ x.state = .failed) ∧ h.kind = 5)
      (¬ parses → d.inboundCheck f = .error (.malformed, .empty))
        ∧ (parses → ¬ open_ → d.inboundCheck f = .error (.notInService, told))
        ∧ (parses → open_ → h.kind = 1 ∧ x.inOps = true → d.inboundCheck f = .error (.inboundHeld, told))
        ∧ (parses → open_ → ¬ (h.kind = 1 ∧ x.inOps = true) →
          (∀ c, x.current = some c → c.key.epoch = h.epoch →
            d.inboundCheck f = if c.state = .expired then .error (.keyUnusable, told) else .ok .current)
          ∧ ((∀ c, x.current = some c → c.key.epoch ≠ h.epoch) →
            (∀ k, x.previous = some k → k.epoch = h.epoch → k.retirePending = false →
              d.inboundCheck f = .ok .previous)
            ∧ ((∀ k, x.previous = some k → k.epoch = h.epoch → k.retirePending = true) →
              (∀ n, x.next = some n → n.key.epoch = h.epoch → n.ready = true → n.key.retirePending = false →
                d.inboundCheck f = .ok .next)
              ∧ ((∀ n, x.next = some n → n.key.epoch = h.epoch → n.ready = true → n.key.retirePending = true) →
                d.inboundCheck f = .error (.epochMiss, told)))))
    ∧ (∀ (d : Device) (q : Queue) (f : Frame),
      let x := d.tunnel f.tunnel
      let entry (s : Slot) : Nat := ((x.key? s).map (·.entry)).getD 0
      let sequence := ((x.key? .current).map (·.outCount)).getD 0 + 1
      let works (entry sequence : Nat) : Device :=
        { d with
          store := d.store.pass .inWork f.cells, engine := { d.engine with inWork := some ⟨f, q, entry, sequence⟩ } }
      (∀ kind o, f.flow = .outbound kind → d.outboundCheck f.tunnel kind = some o →
        d.judgeFrame q f = d.failOutbound f o)
        ∧ (∀ kind, f.flow = .outbound kind → d.outboundCheck f.tunnel kind = none →
          d.judgeFrame q f = (works (entry .current) sequence).bindOutbound f.tunnel)
        ∧ (∀ b o body, f.flow = .inbound b → d.inboundCheck f = .error (o, body) →
          d.judgeFrame q f = d.failInbound f o body)
        ∧ ∀ b slot, f.flow = .inbound b → d.inboundCheck f = .ok slot →
          d.judgeFrame q f = (works (entry slot) 0).modTunnel f.tunnel fun y =>
            y.modKey slot fun k => { k with bound := true })
    ∧ (∀ (d : Device) (f : Frame) (o : Result),
      let t := f.tunnel
      let e : Device :=
        { d.modTunnel t fun y => { y with frameCount := y.frameCount - 1 } with buildDue := d.buildDue || f.reserved }
      let returned (owner : Owner) (p : Port) (code : Nat) : Device :=
        let done : Device := { e with store := e.store.pass (.done owner) f.cells }
        if f.orphan then e.freeCells f.cells
        else done.modPort p fun y =>
          { y with reserved := y.reserved - 1
                   responses := y.responses ++ [⟨⟨f.tag, code, .done, o, .cells f.cells⟩, 0, 1⟩] }
      d.failOutbound f o = match f.party with
        | .trafficPort => returned .traffic .traffic 3
        | .keyPort => returned .key .key 6
        | .conditionMonitor =>
          (e.freeCells f.cells).modTunnel t fun y => { y with condition := { y.condition with outstanding := false } }
        | .proofEngine => match f.proof with
          | some (serial, _) => (e.freeCells f.cells).proofReport serial o
          | none => e.freeCells f.cells)
    ∧ (∀ (d : Device) (f : Frame) (o : Result) (body : Body),
      let t := f.tunnel
      let e := (d.modTunnel t fun y => { y with frameCount := y.frameCount - 1 }).freeCells f.cells
      let e : Device := if f.orphan then e else e.modPort .traffic fun y =>
        { y with reserved := y.reserved - 1, responses := y.responses ++ [⟨⟨f.tag, 4, .done, o, body⟩, 0, 1⟩] }
      d.failInbound f o body = match o with
        | .authFail => (e.countOutcome t .authFail).give .authFail (some t)
        | .replay => (e.countOutcome t .replay).give .replay (some t)
        | .epochMiss => (e.countOutcome t .epochMiss).give .epochMiss (some t)
        | .malformed => (e.countOutcome t .malformed).give .malformed (some t)
        | .notInService => e.countOutcome t .notInService
        | .inboundHeld => e.countOutcome t .inboundHeld
        | .keyUnusable => e.countOutcome t .keyUnusable
        | _ => e)
    ∧ ∀ (c : CellStore) (st : CellState) (cells : List Nat),
      (c.pass st cells).bytes = c.bytes
        ∧ ∀ k, (c.pass st cells).cell k =
          if k ∈ cells ∧ (c.cell k).state ≠ .free then { c.cell k with state := st } else c.cell k

/-- The choice between SETTLE and BULK: in NORMAL by the turn pointer, in SETTLE_FIRST SETTLE, in BULK_RESCUE BULK, in
each the other queue where that one is empty; the pointer moves at NORMAL choices only.  CONTROL's head is taken first;
otherwise the rescue test comes before the choice, and the exit test (against the return mode in BULK_RESCUE), the batch
and the empty-BULK test follow the take; the entry test follows a placing in SETTLE, against the return mode in
BULK_RESCUE (R102, R103, R104, R105).  What an event leaves to settle: an attempt that is due of a proof that waits is
made first (R144); otherwise a take while the engine is IDLE and frames wait (R102); otherwise nothing (log 15). -/
def Obligations.TheModeChoosesTheQueue : Prop :=
  (∀ e : Engine,
    (e.mode = .base .normal →
      e.choice = (if e.turn = .bulk then (if e.bulk = [] then .settle else .bulk)
        else if e.settle = [] then .bulk else .settle)
      ∧ (∀ q, (e.afterTake q).turn = match e.turn with
        | .settle1 => .settle2
        | .settle2 => .settle3
        | .settle3 => .bulk
        | .bulk => .settle1)
      ∧ ∀ q, (e.afterTake q).mode = .base .normal)
    ∧ (e.mode = .base .settleFirst →
      e.choice = (if e.settle = [] then .bulk else .settle)
      ∧ (∀ q, (e.afterTake q).turn = e.turn)
      ∧ (e.afterTake .settle).mode = (if e.settle.length ≤ e.marks.low then .base .normal else .base .settleFirst)
      ∧ (e.afterTake .bulk).mode = .base .settleFirst)
    ∧ ∀ back n, e.mode = .rescue back n →
      e.choice = (if e.bulk = [] then .settle else .bulk)
      ∧ (∀ q, (e.afterTake q).turn = e.turn)
      ∧ (e.afterTake .settle).mode =
          .rescue (if back = .settleFirst ∧ e.settle.length ≤ e.marks.low then .normal else back) n
      ∧ (e.afterTake .bulk).mode =
          if e.marks.rescueBatch ≤ n + 1 ∨ e.bulk = [] then .base back else .rescue back (n + 1))
    ∧ ∀ d : Device,
      let enter (m : Mode) (e : EventSource) : Device := { d with engine := { d.engine with mode := m } }.give e none
      let late := ∃ f rest, d.engine.bulk = f :: rest ∧ d.engine.marks.rescueLimit ≤ (d.clock - f.queuedAt).toNat
      (∀ m, d.engine.mode = .base m →
        (late → d.rescueTest = enter (.rescue m 0) .bulkRescueEntries) ∧ (¬ late → d.rescueTest = d))
        ∧ (∀ back n, d.engine.mode = .rescue back n → d.rescueTest = d)
        ∧ (d.engine.settle.length < d.engine.marks.high → d.entryTest = d)
        ∧ (d.engine.marks.high ≤ d.engine.settle.length →
          (d.engine.mode = .base .normal → d.entryTest = enter (.base .settleFirst) .settleFirstEntries)
          ∧ (∀ n, d.engine.mode = .rescue .normal n →
            d.entryTest = enter (.rescue .settleFirst n) .settleFirstEntries)
          ∧ (d.engine.mode = .base .settleFirst → d.entryTest = d)
          ∧ ∀ n, d.engine.mode = .rescue .settleFirst n → d.entryTest = d)
        ∧ (∀ f rest, d.engine.control = f :: rest →
          d.takeOne = { d with engine := { d.engine with control := rest }, buildDue := true }.judgeFrame .control f)
        ∧ (d.engine.control = [] →
          let e := d.rescueTest
          let q := e.engine.choice
          ∀ f rest, e.engine.queue q = f :: rest →
            d.takeOne = { e with engine := (e.engine.setQueue q rest).afterTake q }.judgeFrame q f)
        ∧ let attempt : Prop := d.buildDue = true ∧ ∃ r, d.proofs.running = some r ∧ r.phase = .waitCell
          let take : Prop := d.engine.inWork = none
            ∧ (d.engine.control ≠ [] ∨ d.engine.settle ≠ [] ∨ d.engine.bulk ≠ [])
          (attempt → d.settle = d.buildAttempt.settle)
            ∧ (¬ attempt → take → d.settle = d.takeOne.settle)
            ∧ (¬ attempt → ¬ take → d.settle = { d with buildDue := false })

/-- The replay window: the judgement of a number against a record, by its five cases; and a frame that does not verify,
or that this check turns down, leaves every key record of its tunnel as it stood (R78). -/
def Obligations.TheReplayWindowJudges : Prop :=
  (∀ (k : KeyRecord) (s : Nat),
    let H := k.highest
    (H < s → k.judge s = some { k with
      highest := s
      accepted := (if H = 0 then k.accepted else H :: k.accepted).filter fun n => decide (s ≤ n + 63) })
      ∧ (s = H → k.judge s = none)
      ∧ (s < H → 1 ≤ s → H ≤ s + 63 → s ∉ k.accepted →
        ∃ a : List Nat, k.judge s = some { k with accepted := a } ∧ ∀ n, n ∈ a ↔ n = s ∨ n ∈ k.accepted)
      ∧ (s < H → s ∈ k.accepted → k.judge s = none)
      ∧ (s + 63 < H ∨ s = 0 → k.judge s = none))
    ∧ ∀ (d : Device) (w : InWork),
      let t := w.frame.tunnel
      let x := d.tunnel t
      let y := (d.judgeInbound w).tunnel t
      w.frame.wire.verifies (d.keys.entry w.entry).inbound = false
          ∨ ((x.slotOf w.entry).bind x.key?).bind (·.judge w.frame.header.sequence) = none →
        y.next = x.next ∧ y.current = x.current ∧ y.previous = x.previous

/-- The frame limits at a bind, with the count after it against the profile: renewal due becomes unreported, reason
FRAMES, where it stood at no and the soft limit is met; the key becomes SPENT with expired unreported, reason SPENT,
where the hard limit is met; both in one bind where both are met; nothing else of the record changes but the count, by
one, and the bound mark; a bind that leaves the key SPENT adds the cause KEY_SPENT (R82, R83). -/
def Obligations.BindsTestTheFrameLimits : Prop :=
  (∀ (c : CurrentKey) (p : Profile),
    let n := c.key.outCount + 1
    c.bind p =
      { state := if p.hardFrames ≤ n then .spent else c.state
        key := { c.key with
          outCount := n
          bound := true
          renewal := if p.softFrames ≤ n ∧ c.key.renewal = .no then .unreported .frames else c.key.renewal
          expired := if p.hardFrames ≤ n then .unreported .spent else c.key.expired } })
    ∧ ∀ (d : Device) (t : Nat),
      ((d.tunnel t).current = none → d.bindOutbound t = d)
        ∧ ∀ c, (d.tunnel t).current = some c →
          let after := c.bind (d.profileOf t)
          let e := d.modTunnel t fun y => { y with current := some after }
          d.bindOutbound t = if after.state = .spent then e.addKeyCause t .spent else e

/-! ### Completions -/

/-- OUTBOUND_COMPLETION with an outbound frame in work: the wire frame is laid in its cells under the outbound key of
the record bound, the record's hold ends, and the engine is IDLE; the cells and the announcement follow the producer;
a keepalive is no longer outstanding and is counted and given as sent (R127), the keepalive timer restarts, the bank
is given "frames sent", the frame count falls, and a closing that waited ends (R26, R109, R115, R118).  A keepalive
timer that runs is restarted, and a report that matches the outstanding serial counts the frame as sent and starts
the echo's deadline, or ends the proof ABORTED (R125, R145; a count at its upper bound: log 19). The wire bytes are
free values of the cipher suite (log 4), and what a DISCARDED response carries is the model's (log 38).  With none in
work the event cannot occur, and the model changes nothing (log 6). -/
def Obligations.OutboundFramesCompleteSent : Prop :=
  ∀ (s : State),
    (∀ (w : InWork) (kind : FrameKind), s.dev.engine.inWork = some w → w.frame.flow = .outbound kind →
      let f := w.frame
      let t := f.tunnel
      let x := s.dev.tunnel t
      let epoch := (((x.slotOf w.entry).bind x.key?).map (·.epoch)).getD 0
      let header : Header :=
        ⟨3, kind.byte, epoch, (f.proof.map (·.2)).getD 0, 1, (x.shop.map (·.toNat)).getD 0, w.sequence, f.size⟩
      let wire := wireFrame (s.dev.keys.entry w.entry).outbound header f.content
      let d : Device := { s.dev with
        store := s.dev.store.lay f.cells wire, engine := { s.dev.engine with inWork := none } }.releaseKey t w.entry
      let generated (by_ : Producer) : Device :=
        if f.lost then d.freeCells f.cells
        else (d.passCells f.cells (.done .traffic)).pushNotice .traffic
          ⟨some t, d.clock, .generated by_ kind epoch w.sequence (f.size + 32) f.cells⟩
      let announced : Device := match f.party with
        | .trafficPort =>
          if f.orphan then d.freeCells f.cells
          else (d.passCells f.cells (.done .traffic)).answerDeferred .traffic f.tag 3 .done .sent
            (.sent t epoch w.sequence (f.size + 32) f.cells)
        | .keyPort =>
          if f.orphan then { d.freeCells f.cells with buildDue := (d.freeCells f.cells).buildDue || f.reserved }
          else (generated .key).answerDeferred .key f.tag 6 .done (if f.lost then .discarded else .handed)
            (.handed t epoch w.sequence)
        | .conditionMonitor =>
          ((generated .part).modTunnel t fun y =>
            { y with condition := { y.condition with
              outstanding := false, keepalivesSent := min (y.condition.keepalivesSent + 1) 4294967295 } }).give
                .keepalivesSent (some t)
        | .proofEngine => match f.proof with
          | some (serial, _) => (generated .part).proofReport serial .sent
          | none => generated .part
      let ended := (((announced.outboundSent t).give .framesSent (some t)).modTunnel t
        fun y => { y with frameCount := y.frameCount - 1 }).endClosing t
      s.dev.completeOutbound w kind = ended ∧ exec .outboundCompletion s = s.to ended.finish)
    ∧ ((∀ w k, s.dev.engine.inWork = some w → w.frame.flow ≠ .outbound k) → exec .outboundCompletion s = .next s)
    ∧ ∀ (d : Device) (t : Nat) (serial : BitVec 32) (outcome : Result),
      let keepalive := (d.profileOf t).keepalive
      let restarted : Option Clock := if keepalive = 0 then none else some (d.after (keepalive * 1000000))
      d.outboundSent t = (d.modTunnel t fun x =>
          { x with condition := { x.condition with
            keepaliveDeadline := if x.condition.keepaliveDeadline = none then none else restarted } })
        ∧ (∀ r, d.proofs.running = some r → r.phase = .inFlight serial →
          (outcome = .sent → ∃ sent draws, (r.sent < 4294967295 → sent = r.sent + 1 ∧ draws = d.draws)
            ∧ d.proofReport serial outcome = { d with
              draws := draws
              proofs := { d.proofs with
                running := some { r with sent := sent, phase := .awaitEcho serial (d.after 250000) } } })
          ∧ (outcome = .keyUnusable → d.proofReport serial outcome = d.endProof .aborted (some .keyUnusable))
          ∧ (outcome = .notInService → d.proofReport serial outcome = d.endProof .aborted (some .notInService)))
        ∧ ((∀ r, d.proofs.running = some r → r.phase ≠ .inFlight serial) → d.proofReport serial outcome = d)

/-- INBOUND_COMPLETION with an inbound frame in work.  A frame that does not verify under the inbound key of the
record bound completes AUTH_FAIL, one that fails the window REPLAY: its cells are freed, the outcome is answered and
counted, and the record is not changed.  An authenticated frame has its window effect made, then the follow test,
then ends by its kind; the silence timer restarts where it runs and "frames accepted" is given.  Then the engine is
IDLE, the record's hold ends, and a closing that waited ends (R27, R77, R112..R115, R121).  A dialogue finds a place
where the key notices and the flags that wait leave one; where the frame followed, its DIALOGUE_IN stands behind the
key notices of the event, KEY_FOLLOWED among them (R80, R91; log 15).  With none in work the model changes nothing
(log 6).  Verification is what R7 and R2 say and no more (log 4): one key at most; no changed header, payload or tag;
the payload is what was enciphered. What the follow test, an echo handed over, an outcome counted, a restart and a
release do is R80, R146, R121, R124, R69. -/
def Obligations.InboundFramesCompleteAsJudged : Prop :=
  ∀ (s : State),
    (∀ (w : InWork) (b : Byte), s.dev.engine.inWork = some w → w.frame.flow = .inbound b →
      let f := w.frame
      let t := f.tunnel
      let d := s.dev
      let h := Header.ofBytes (slice f.content 0 16)
      let key := (d.keys.entry w.entry).inbound
      let wire : Wire := ⟨slice f.content 0 16, slice f.content 16 (f.size - 32), slice f.content (f.size - 16) 16⟩
      let told : Body := .inbound h.kind h.epoch h.sequence
      let rejected (o : Result) (c : Counted) (e : EventSource) : Device :=
        let d := (d.modTunnel t fun y => { y with frameCount := y.frameCount - 1 }).freeCells f.cells
        let d := if f.orphan then d else d.answerDeferred .traffic f.tag 4 .done o told
        (d.countOutcome t c).give e (some t)
      let answer (d : Device) (o : Result) (body : Body) : Device :=
        if f.orphan then d else d.answerDeferred .traffic f.tag 4 .done o body
      let accepted (k : KeyRecord) : Device :=
        let d := (d.modKeyOf t w.entry fun _ => k).followTest t w.entry
        let laid (o : Owner) : Device :=
          { d with store := (d.store.lay f.cells wire.payload).pass (.done o) f.cells }
        let d := match h.kind with
          | 2 => answer (d.freeCells f.cells) .consumed told
          | 4 => answer ((d.handEcho t h.index wire.payload).freeCells f.cells) .consumed told
          | 5 =>
            if f.orphan then d.freeCells f.cells
            else if d.key.notices.length + d.waitingFlags.length < 64 then
              answer ((laid .key).pushNotice .key ⟨some t, d.clock, .dialogueIn .dialogue h.epoch h.sequence h.length
                f.cells⟩)
                .diverted told
            else (answer (d.freeCells f.cells) .dialogueDropped told).give .dialoguesDropped (some t)
          | _ =>
            if f.orphan then d.freeCells f.cells
            else answer (laid .traffic) .accepted (.accepted h.kind h.epoch h.sequence h.length f.cells)
        ((d.authenticated t).give .framesAccepted (some t)).modTunnel t
          fun y => { y with frameCount := y.frameCount - 1 }
      let judged : Device :=
        if ¬ wire.verifies key then rejected .authFail .authFail .authFail
        else match (((d.tunnel t).slotOf w.entry).bind (d.tunnel t).key?).bind (·.judge h.sequence) with
          | none => rejected .replay .replay .replay
          | some k => accepted k
      let ended := ({ judged with engine := { judged.engine with inWork := none } }.releaseKey t w.entry).endClosing t
      let before := s.dev.key.notices.length
      s.dev.completeInbound w = ended
        ∧ exec .inboundCompletion s = s.to (
          if before < ended.key.notices.length ∧ ended.waitingFlags ≠ [] then
            ended.finish.modPort .key fun y =>
              { y with notices := y.notices.take before ++ y.notices.drop (before + 1) ++ (y.notices[before]?).toList }
          else ended.finish))
    ∧ ((∀ w b, s.dev.engine.inWork = some w → w.frame.flow ≠ .inbound b) → exec .inboundCompletion s = .next s)
    ∧ (∀ (w : Wire) (key : BitVec 256), w.verifies key = true →
      w.text = Config.suite.text key w.header w.payload ∧ w.tag = Config.suite.tag key w.header w.text
        ∧ w.payload.length = w.text.length
        ∧ (∀ key', key' ≠ key → w.verifies key' = false)
        ∧ (∀ header text, (header ≠ w.header ∨ text ≠ w.text) →
          ∀ key', (Wire.mk header text w.tag).verifies key' = false)
        ∧ ∀ tag, tag ≠ w.tag → (Wire.mk w.header w.text tag).verifies key = false)
    ∧ (∀ (key key' : BitVec 256) (h : Header) (payload : List Byte),
      let text := Config.suite.text key h.bytes payload
      let w : Wire := ⟨h.bytes, text, Config.suite.tag key h.bytes text⟩
      wireFrame key h payload = w.header ++ w.text ++ w.tag
        ∧ (w.verifies key' = true → key' = key ∧ w.payload = payload))
    ∧ ∀ (d : Device) (t : Nat),
      let x := d.tunnel t
      let p := d.profileOf t
      (∀ entry,
        let follows := p.followPeer = true ∧ (x.state = .provisioned ∨ x.state = .inService ∨ x.state = .isolated)
          ∧ ∃ n, x.next = some n ∧ n.ready = true ∧ n.key.entry = entry ∧ n.key.retirePending = false
        (¬ follows → d.followTest t entry = d)
          ∧ (follows → d.followTest t entry =
            ((d.promote t).1.modTunnel t fun y =>
              { y with current := y.current.map fun c =>
                { c with key := { c.key with followed := .unreported (d.promote t).2.previous } } }).give .follows
                  (some t)))
        ∧ (∀ k : Counted,
          let up (n : Nat) : Nat := min (n + 1) 65535
          let more (n : Nat) : Nat := min (n + 1) 4294967295
          d.countOutcome t k = d.modTunnel t fun y =>
            let c := y.condition
            if c.intervalDeadline = none then y
            else { y with condition := match k with
              | .authFail => { c with
                counts := { c.counts with authFail := up c.counts.authFail }
                totals := { c.totals with authFail := more c.totals.authFail } }
              | .replay => { c with
                counts := { c.counts with replay := up c.counts.replay }
                totals := { c.totals with replay := more c.totals.replay } }
              | .epochMiss => { c with
                counts := { c.counts with epochMiss := up c.counts.epochMiss }
                totals := { c.totals with epochMiss := more c.totals.epochMiss } }
              | .malformed => { c with totals := { c.totals with malformed := more c.totals.malformed } }
              | .notInService => { c with totals := { c.totals with notInService := more c.totals.notInService } }
              | .inboundHeld => { c with totals := { c.totals with inboundHeld := more c.totals.inboundHeld } }
              | .keyUnusable => { c with totals := { c.totals with keyUnusable := more c.totals.keyUnusable } } })
        ∧ (d.authenticated t = d.modTunnel t fun y =>
          { y with condition := { y.condition with
            silenceDeadline := if y.condition.silenceDeadline = none then none
              else some (d.after (p.silence * 1000000)) } })
        ∧ (∀ entry slot k, x.slotOf entry = some slot → x.key? slot = some k →
          let e := d.modTunnel t fun y => y.modKey slot fun k => { k with bound := false }
          d.releaseKey t entry =
            if k.retirePending then (e.setEntry entry .free).modTunnel t fun y => y.dropKey slot else e)
        ∧ (∀ r serial deadline index payload, d.proofs.running = some r → r.phase = .awaitEcho serial deadline →
          r.tunnel = t → 4 ≤ payload.length → payload.take 4 = beBytes 4 serial.toNat → index = r.entry →
            d.handEcho t index payload =
              if payload = proofPayload (d.proofs.patterns.getD r.entry ⟨0, 0, 0⟩) serial then d.advanceProof
              else d.proofMiss r serial .mismatch (some payload))
        ∧ ∀ index payload,
          (∀ r serial deadline, d.proofs.running = some r → r.phase = .awaitEcho serial deadline → r.tunnel = t →
            4 ≤ payload.length → payload.take 4 = beBytes 4 serial.toNat → index ≠ r.entry) →
            d.handEcho t index payload =
              (match d.proofs.running with
                | some r =>
                  if r.tunnel = t then
                    { d with proofs := { d.proofs with running := some { r with strays := min (r.strays + 1) 65535 } } }
                  else d
                | none => d).give .strayEchoes (some t)

/-- DERIVATION_COMPLETE with a job in progress: it leaves the queue.  On a tunnel that is not CLOSING the two
direction keys (free values: log 5) are written into the entry, NEXT is READY, the flag is cleared, the response owed
is DONE, and one "derivations" event is given.  On a CLOSING tunnel the entry is freed, NEXT is ABSENT, the response
owed is TUNNEL_CLOSED, and the closing ends if nothing else holds it (R61, R62, R63, R64).  One secret yields keys
that differ by direction, by shop code and by epoch (R8), and two derivations under one epoch give the same two keys
only if the secret is the same (R54; log 5).  With no job the model changes nothing (log 6). -/
def Obligations.DerivationsCompleteInQueueOrder : Prop :=
  ∀ (s : State),
    (∀ (j : Job) (rest : List Job), s.dev.keys.jobs = j :: rest →
      let d : Device := { s.dev with keys := { s.dev.keys with jobs := rest } }
      let t := j.tunnel
      let shop := (d.tunnel t).shop.getD 0
      let answer (d : Device) (st : Status) (body : Body) : Device := match j.owed with
        | some tag => d.answerDeferred .key tag 7 st .none body
        | none => d
      let ready : Device :=
        (d.setEntry j.entry
          (.keyed (Config.suite.key .outbound j.secret shop j.epoch)
            (Config.suite.key .inbound j.secret shop j.epoch))).modTunnel t
          fun x => { x with next := x.next.map fun n => { n with ready := true }, inDerivation := false }
      let abandoned : Device :=
        (d.setEntry j.entry .free).modTunnel t fun x => { x with next := none, inDerivation := false }
      exec .derivationComplete s = s.to (
        if (d.tunnel t).state = .closing then ((answer abandoned .tunnelClosed .empty).endClosing t).finish
        else ((answer ready .done (.installed t j.epoch j.entry)).give .derivations (some t)).finish))
    ∧ (s.dev.keys.jobs = [] → exec .derivationComplete s = .next s)
    ∧ (∀ (x y : KeyDirection) (secret : BitVec 256) (shop shop' : BitVec 24) (epoch epoch' : Nat),
      epoch ≤ 255 → epoch' ≤ 255 → (x ≠ y ∨ shop ≠ shop' ∨ epoch ≠ epoch') →
        Config.suite.key x secret shop epoch ≠ Config.suite.key y secret shop' epoch')
    ∧ ∀ (secret secret' : BitVec 256) (shop shop' : BitVec 24) (epoch : Nat), epoch ≤ 255 →
      (∀ x, Config.suite.key x secret shop epoch = Config.suite.key x secret' shop' epoch) → secret = secret'

/-! ### Keys -/

/-- INSTALL_KEY: a cell that is the key port's CLAIMED, reserved cell is wiped and made FREE whatever the response;
the checks in their order give the refusal; on acceptance the secret is copied into a job at the tail of the
derivation queue, the lowest free entry is taken, the low mark is tested, the record stands in NEXT, DERIVING, and
the response is deferred (R30, R51, R55, R57, R58, R59, R71).  Operand positions: the model's (log 1). -/
def Obligations.InstallationsTakeTheSecret : Prop :=
  (∀ (s : State) (q : Request), s.dev.Poses .key q 7 →
    let epoch := q.num 0 1
    let cell := q.num 1 2
    let t := q.tunnel
    let x := s.dev.tunnel t
    let d := s.dev.taken .key 7
    let live := x.state = .provisioned ∨ x.state = .inService ∨ x.state = .isolated ∨ x.state = .failed
    let refuse (d : Device) (st : Status) : Device := d.respond .key q (.refusal st)
    let e := d.freeCells [cell]
    let secret := BitVec.ofNat 256 (beNat (s.dev.store.readSeq [cell] 0 32))
    exec (.installKey .key) s =
      if 2048 ≤ cell then s.to (refuse d .badRequest)
      else if s.dev.store.cell cell ≠ ⟨.claimed .key, some .reserved⟩ then
        s.to (refuse d (if live then .notOwner else .wrongState))
      else if ¬ live then s.to (refuse e .wrongState).finish
      else if x.next ≠ none then s.to (refuse e .slotBusy).finish
      else if epoch < 1 ∨ 255 < epoch ∨ x.current.any (fun c => c.key.epoch == epoch)
          ∨ x.previous.any (fun k => k.epoch == epoch) then s.to (refuse e .epochConflict).finish
      else match s.dev.keys.lowestFree with
        | none => s.to (refuse e .keystoreFull).finish
        | some entry =>
          if 8 ≤ s.dev.keys.jobs.length then s.to (refuse e .deriveFull).finish
          else
            let f : Device := e.setEntry entry .blank
            let f : Device := if s.dev.keys.lowMark ≤ s.dev.keys.freeCount ∧ f.keys.freeCount < s.dev.keys.lowMark then
              f.deviceFault .keystoreLow f.keys.freeCount else f
            let g : Device := f.modTunnel t fun x =>
              { x with
                next := some ⟨false, ⟨epoch, entry, 0, none, none, none, 0, [], .no, .no, .no, none, false, false⟩⟩
                inDerivation := true }
            let job : Job := ⟨t, epoch, entry, secret, some q.tag⟩
            s.to { g with keys := { g.keys with jobs := g.keys.jobs ++ [job] } }.finish)
    ∧ ∀ (u : KeyUnit) (e : Nat), u.lowestFree = some e →
      e < 1024 ∧ u.entry e = .free ∧ ∀ j, j < e → u.entry j ≠ .free

/-- PROMOTE: its tests in order, then the promotion (R72).  A promotion retires the PREVIOUS key or marks it where
it is bound; demotes an ACTIVE or SPENT CURRENT key with a grace deadline where the slot is then ABSENT, or moves a
bound EXPIRED one there retire pending; makes NEXT the ACTIVE CURRENT with count 0 and its age deadlines from now;
removes the key causes; and takes a PROVISIONED tunnel into service with its timers (R37, R73, R74, R84, R120).  The
entry of a PREVIOUS key retired, of a CURRENT key displaced by a PREVIOUS that stays (R74) and of an unbound EXPIRED
CURRENT becomes free, and no other entry changes (R68).  The bank is given one early retires event for the PREVIOUS key
(also where it was retire pending before: log 37), one for a displaced CURRENT key unless it is EXPIRED (log 16), and
one promotions event (R93).  The response tells the epoch that became PREVIOUS and the epochs retired or marked, in
that order of the rules (R72; a bound EXPIRED one in both places: log 32).  Of a displaced CURRENT key that is bound
beside a bound PREVIOUS nothing is said but that its entry stands: StepsKeepTheCellStoreInOrder excludes it.  Nothing
else of the part changes.  Operand positions: the model's (log 1). -/
def Obligations.PromotionsAdvanceTheKeys : Prop :=
  (∀ (s : State) (q : Request), s.dev.Poses .key q 10 →
    let epoch := q.num 0 1
    let x := s.dev.tunnel q.tunnel
    let d := s.dev.taken .key 10
    exec (.promote .key) s =
      if epoch = 0 then s.to (d.respond .key q (.refusal .badRequest))
      else if ¬ (x.state = .provisioned ∨ x.state = .inService ∨ x.state = .isolated) then
        s.to (d.respond .key q (.refusal .wrongState))
      else if x.current.any fun c => c.key.epoch == epoch then s.to (d.respond .key q ⟨.done, .alreadyCurrent, .empty⟩)
      else if x.next.any fun n => n.ready && !n.key.retirePending && n.key.epoch == epoch then
        let told := (d.promote q.tunnel).2
        s.to (((d.promote q.tunnel).1.respond .key q
          ⟨.done, .promoted, .promoted epoch told.previous told.retired⟩).finish)
      else s.to (d.respond .key q (.refusal .noSuchEpoch)))
    ∧ ∀ (d : Device) (t : Nat) (n : NextKey), (d.tunnel t).next = some n →
      let x := d.tunnel t
      let p := d.profileOf t
      let e := (d.promote t).1
      let told := (d.promote t).2
      let held : Bool := x.previous.any (·.bound)
      let demoted (k : KeyRecord) (grace : Option Clock) (pending : Bool) : KeyRecord :=
        { k with graceDeadline := grace, softDeadline := none, hardDeadline := none, retirePending := pending }
      let previous : Option KeyRecord :=
        if held then x.previous.map fun k => { k with retirePending := true }
        else match x.current with
          | none => none
          | some ⟨.expired, k⟩ => if k.bound then some (demoted k none true) else none
          | some ⟨_, k⟩ => some (demoted k (some (d.after (p.grace * 1000))) k.retirePending)
      let displaced : List CurrentKey := if held then x.current.toList else []
      let outlived : List CurrentKey := if held then [] else x.current.toList.filter fun c => decide (c.state = .expired)
      let retired : List KeyRecord := x.previous.toList ++ (displaced ++ outlived).map (·.key)
      let freed : List Nat := (retired.filter fun k => !k.bound).map (·.entry)
      let given : List EventSource := (x.previous.toList.map fun _ => .earlyRetires)
        ++ ((displaced.filter fun c => decide (c.state ≠ .expired)).map fun _ => .earlyRetires) ++ [.promotions]
      e.tunnel t = { x with
          next := none
          current := some ⟨.active, { n.key with
            outCount := 0, ageStart := some d.clock, softDeadline := some (d.after (p.softAge * 1000000))
            hardDeadline := some (d.after (p.hardAge * 1000000)) }⟩
          previous := previous
          outCauses := ⟨x.outCauses.ops, false, false⟩
          state := if x.state = .provisioned then .inService else x.state
          condition := if x.state = .provisioned then { x.condition with
              silenceDeadline := some (d.after (p.silence * 1000000))
              keepaliveDeadline := if p.keepalive = 0 then none else some (d.after (p.keepalive * 1000000)) }
            else x.condition }
        ∧ (∀ u, u ≠ t → e.tunnel u = d.tunnel u)
        ∧ (∀ entry, e.keys.entry entry = if entry ∈ freed then .free else d.keys.entry entry)
        ∧ e.bank = (given.foldl (fun d v => d.give v (some t)) d).bank
        ∧ { e with tunnels := d.tunnels, keys := { e.keys with entries := d.keys.entries }, bank := d.bank } = d
        ∧ told.previous = (if held then none else previous.map (·.epoch))
        ∧ told.retired = retired.map (·.epoch)

/-- DISCARD_NEXT and RETIRE_PREVIOUS: their tests in order; the key is retired, its entry wiped and free and its slot
ABSENT, or marked retire pending where it is bound to the frame in work (R66, R68, R69, R90). -/
def Obligations.KeysAreRetiredOnRequest : Prop :=
  (∀ (s : State) (q : Request), s.dev.Poses .key q 8 →
    let t := q.tunnel
    let x := s.dev.tunnel t
    let d := s.dev.taken .key 8
    exec (.discardNext .key) s =
      if x.state = .empty ∨ x.state = .closing then s.to (d.respond .key q (.refusal .wrongState))
      else match x.next with
        | none => s.to (d.respond .key q (.refusal .noSuchEpoch))
        | some n =>
          if n.ready = false then s.to (d.respond .key q (.refusal .slotBusy))
          else
            let e : Device :=
              if n.key.bound then
                d.modTunnel t fun x =>
                  { x with next := x.next.map fun n => { n with key := { n.key with retirePending := true } } }
              else (d.setEntry n.key.entry .free).modTunnel t fun x => { x with next := none }
            s.to (e.respond .key q ⟨.done, .none, .epoch n.key.epoch⟩).finish)
    ∧ ∀ (s : State) (q : Request), s.dev.Poses .key q 11 →
      let t := q.tunnel
      let x := s.dev.tunnel t
      let d := s.dev.taken .key 11
      exec (.retirePrevious .key) s =
        if x.state = .empty ∨ x.state = .closing then s.to (d.respond .key q (.refusal .wrongState))
        else match x.previous with
          | none => s.to (d.respond .key q (.refusal .noSuchEpoch))
          | some k =>
            if k.retirePending then s.to (d.respond .key q ⟨.done, .retirePending, .epoch k.epoch⟩)
            else if k.bound then
              s.to ((d.modTunnel t fun x =>
                { x with previous := x.previous.map fun k => { k with retirePending := true } }).respond .key q
                  ⟨.done, .retirePending, .epoch k.epoch⟩).finish
            else
              s.to (((d.setEntry k.entry .free).modTunnel t fun x => { x with previous := none }).respond .key q
                ⟨.done, .retired, .epoch k.epoch⟩).finish

/-- GRACE_EXPIRY, SOFT_AGE_EXPIRY and HARD_AGE_EXPIRY where the clock has come to the deadline: the PREVIOUS key is
retired or marked (R89); renewal due is raised, reason AGE, if it stands at no (R85); the CURRENT key becomes EXPIRED
with its flags raised, KEY_EXPIRED is added, and the fault KEY_EXPIRED occurs (R86); that the soft deadline goes with
the hard one is the model's reading of R55 (log 27).  Elsewhere the event cannot occur, and the model changes nothing
(log 6). The flags that an event has made unreported are offered at its end (log 15), in the scan order of R92:
tunnels ascending, CURRENT then PREVIOUS, expired, renewal due, followed; each takes a place of the key port's 64
while places remain and becomes reported, with the key's values as they stand, and the rest wait (R91, R92).  The epoch
that a KEY_FOLLOWED names is the one that the flag has kept since the follow (log 17). -/
def Obligations.KeyDeadlinesExpire : Prop :=
  ∀ (s : State) (t : Nat),
    let x := s.dev.tunnel t
    (∀ k, x.previous = some k → k.graceDeadline = some s.dev.clock →
      let d := s.dev.modTunnel t fun x => { x with previous := x.previous.map fun k => { k with graceDeadline := none } }
      exec (.graceExpiry t) s =
        if k.bound then
          s.to (d.modTunnel t fun x =>
            { x with previous := x.previous.map fun k => { k with retirePending := true } }).finish
        else s.to ((d.setEntry k.entry .free).modTunnel t fun x => { x with previous := none }).finish)
      ∧ ((∀ k, x.previous = some k → k.graceDeadline ≠ some s.dev.clock) → exec (.graceExpiry t) s = .next s)
      ∧ (∀ c, x.current = some c → c.key.softDeadline = some s.dev.clock →
        exec (.softAgeExpiry t) s =
          s.to (s.dev.modTunnel t fun x =>
            { x with current := x.current.map fun c => { c with key := { c.key with
              softDeadline := none
              renewal := if c.key.renewal = .no then .unreported .age else c.key.renewal } } }).finish)
      ∧ ((∀ c, x.current = some c → c.key.softDeadline ≠ some s.dev.clock) → exec (.softAgeExpiry t) s = .next s)
      ∧ (∀ c, x.current = some c → c.key.hardDeadline = some s.dev.clock →
        let k := { c.key with
          softDeadline := none, hardDeadline := none, expired := .unreported .age
          renewal := if c.key.renewal = .no then .unreported .age else c.key.renewal }
        exec (.hardAgeExpiry t) s =
          s.to (((s.dev.modTunnel t fun x => { x with current := some ⟨.expired, k⟩ }).addKeyCause t
            .expired).tunnelFault t .keyExpired c.key.epoch).finish)
      ∧ ((∀ c, x.current = some c → c.key.hardDeadline ≠ some s.dev.clock) → exec (.hardAgeExpiry t) s = .next s)
      ∧ ∀ (d : Device) (slot : Slot) (k : KeyRecord) (flag : KeyFlag),
        let unreported : KeyRecord → List KeyFlag := fun k =>
          (match k.expired with
            | .unreported _ => [.expired]
            | _ => []) ++ (match k.renewal with
            | .unreported _ => [.renewal]
            | _ => []) ++ (match k.followed with
            | .unreported _ => [.followed]
            | _ => [])
        d.finish = d.settle.offerFlags.closeEvent
          ∧ d.offerFlags = d.waitingFlags.foldl Device.offerFlag d
          ∧ (∀ places, d.keyFlagScan places = (d.waitingFlags.take places).foldl Device.offerFlag d)
          ∧ d.waitingFlags = ((List.range 480).flatMap fun u => [Slot.current, .previous].flatMap fun r =>
              (((d.tunnel u).key? r).toList.flatMap unreported).map fun f => (u, r, f))
          ∧ (64 ≤ d.key.notices.length → d.offerFlag (t, slot, flag) = d)
          ∧ (d.key.notices.length < 64 → (d.tunnel t).key? slot = some k →
            let told (f : KeyRecord → KeyRecord) (body : NoticeBody) : Device :=
              (d.modTunnel t fun x => x.modKey slot f).pushNotice .key ⟨some t, d.clock, body⟩
            d.offerFlag (t, slot, flag) = match flag with
              | .expired => match k.expired with
                | .unreported w => told (fun k => { k with expired := .reported w })
                    (.keyExpired k.epoch slot w k.outCount)
                | _ => d
              | .renewal => match k.renewal with
                | .unreported w => told (fun k => { k with renewal := .reported w })
                    (.renewalDue k.epoch slot w k.outCount (k.ageStart.map fun a => (d.clock - a).toNat))
                | _ => d
              | .followed => match k.followed with
                | .unreported w => told (fun k => { k with followed := .reported w }) (.keyFollowed k.epoch slot w)
                | _ => d)

/-! ### Tunnels and profiles -/

/-- OPEN_TUNNEL: its tests in order; on acceptance the tunnel is PROVISIONED with the shop code and profile, its
causes and retry count empty, its condition record reset with an interval begun, and its unread FAULT notices
removed, the places freed offered to waiting faults (R36, R120, R132, R141).  Operand positions: the model's
(log 1). -/
def Obligations.OpenedTunnelsAreProvisioned : Prop :=
  ∀ (s : State) (q : Request), s.dev.Poses .operations q 12 →
    let t := q.tunnel
    let shop := BitVec.ofNat 24 (q.num 0 3)
    let profile := q.num 3 1
    let d := s.dev.taken .operations 12
    let interval := (s.dev.profiles.getD profile Config.factoryProfile).interval
    let condition : Condition :=
      { counts := ⟨0, 0, 0⟩, runs := ⟨0, 0, 0⟩, totals := ⟨0, 0, 0, 0, 0, 0, 0⟩, keepalivesSent := 0
        keepalivesSkipped := 0, intervalStart := some s.dev.clock
        intervalDeadline := some (s.dev.after (interval * 1000000)), silenceDeadline := none
        keepaliveDeadline := none, outstanding := false, latches := ⟨none, none, none, none, none, none, none⟩ }
    let opened := d.modTunnel t fun x =>
      { x with
        state := .provisioned, shop := some shop, profile := some profile, outCauses := ⟨false, false, false⟩
        inOps := false, retryCount := 0, condition := condition }
    let mine (n : Notice) : Bool := match n.body with
      | .tunnelFault .. => decide (n.tunnel = some t)
      | _ => false
    let freed := s.dev.operations.notices.countP mine
    let told : Device :=
      if freed = 0 then opened
      else ((opened.modPort .operations fun y =>
        { y with notices := y.notices.filter fun n => !mine n }).faultScan freed).retryStartTest
    exec (.openTunnel .operations) s =
      if 7 < profile then s.to (d.respond .operations q (.refusal .badRequest))
      else if (s.dev.tunnel t).state ≠ .empty then s.to (d.respond .operations q (.refusal .wrongState))
      else if ∃ u ∈ List.range 480, u ≠ t ∧ (s.dev.tunnel u).state ≠ .empty ∧ (s.dev.tunnel u).shop = some shop then
        s.to (d.respond .operations q (.refusal .shopInUse))
      else s.to (told.respond .operations q ⟨.done, .none, .empty⟩).finish

/-- CLOSE_TUNNEL: refused WRONG_STATE for an EMPTY or CLOSING tunnel; otherwise in order the tunnel is CLOSING with
its response owed, leaves the retry queue, its proof ends ABORTED, its waiting frames are removed, its hold and its
condition timers stop, and the closing ends if no frame in work and no derivation holds it (R39, R41, R117, R120,
R151). A removal keeps the order of the other frames, makes the exit and empty-BULK tests on what is left (R104,
R105), and ends each frame TUNNEL_CLOSED as ChecksAtTakeDecideInOrder says a frame fails, an inbound one with its
cells in the response (R25, R117); that they are ended in the order CONTROL, SETTLE, BULK, each from its head, and so
the order of their responses, is the model's (log 15); one from CONTROL lets a waiting proof attempt its frame (R144;
log 39).  A closing that ends removes the tunnel's frames that still wait, as the request does (R41; log 39), leaves
the tunnel EMPTY, with no key, no shop and no cause, frees the key store entries of its keys and no other, and queues
the response owed. -/
def Obligations.ClosedTunnelsLoseTheirFrames : Prop :=
  (∀ (s : State) (q : Request), s.dev.Poses .operations q 13 →
    let t := q.tunnel
    let x := s.dev.tunnel t
    let d := s.dev.taken .operations 13
    let e := d.modTunnel t fun x => { x with state := .closing, closeTag := some q.tag }
    let e := ({ e with proofs := { e.proofs with retry := e.proofs.retry.filter fun u => u != t } }.abortProof t .closing
      fun _ => true).removeFrames t
    let e := e.modTunnel t fun x =>
      { x with holdDeadline := none, condition := { x.condition with
          intervalStart := none, intervalDeadline := none, silenceDeadline := none, keepaliveDeadline := none } }
    exec (.closeTunnel .operations) s =
      if x.state = .empty ∨ x.state = .closing then s.to (d.respond .operations q (.refusal .wrongState))
      else s.to (e.endClosing t).finish)
    ∧ (∀ (d : Device) (t : Nat) (k : Queue),
      (d.removeFrames t).engine.queue k = (d.engine.queue k).filter fun f => !decide (f.tunnel = t))
    ∧ (∀ (d : Device) (t : Nat),
      let e := d.engine
      let mine (f : Frame) : Bool := decide (f.tunnel = t)
      let left (fs : List Frame) : List Frame := fs.filter fun f => !mine f
      let exited : Mode :=
        if e.settle.any mine = true ∧ (left e.settle).length ≤ e.marks.low then match e.mode with
          | .base .settleFirst => .base .normal
          | .rescue .settleFirst n => .rescue .normal n
          | m => m
        else e.mode
      let mode : Mode :=
        if e.bulk.any mine = true ∧ left e.bulk = [] then match exited with
          | .rescue back _ => .base back
          | m => m
        else exited
      let ended (d : Device) (f : Frame) : Device := match f.flow with
        | .outbound _ => d.failOutbound f .tunnelClosed
        | .inbound _ => d.failInbound f .tunnelClosed (.cells f.cells)
      d.removeFrames t = (e.control.filter mine ++ e.settle.filter mine ++ e.bulk.filter mine).foldl ended
        { d with
          engine := { e with control := left e.control, settle := left e.settle, bulk := left e.bulk, mode := mode }
          buildDue := d.buildDue || e.control.any mine })
    ∧ ∀ (d : Device) (t : Nat), (d.tunnel t).state = .closing →
      let waits := (d.tunnel t).inDerivation = true ∨ ∃ w, d.engine.inWork = some w ∧ w.frame.tunnel = t
      (waits → d.endClosing t = d)
        ∧ (¬ waits →
          let y := (d.endClosing t).tunnel t
          y.state = .empty ∧ y.shop = none ∧ y.profile = none ∧ y.outCauses = ⟨false, false, false⟩ ∧ y.inOps = false
            ∧ y.retryCount = 0 ∧ y.closeTag = none ∧ y.next = none ∧ y.current = none ∧ y.previous = none
            ∧ (∀ slot k, (d.tunnel t).key? slot = some k → (d.endClosing t).keys.entry k.entry = .free)
            ∧ (∀ entry, (∀ slot k, (d.tunnel t).key? slot = some k → k.entry ≠ entry) →
              (d.endClosing t).keys.entry entry = d.keys.entry entry)
            ∧ (d.endClosing t).operations.responses = (d.operations.responses ++ match (d.tunnel t).closeTag with
              | some tag => [⟨⟨tag, 13, .done, .none, .empty⟩, 0, 1⟩]
              | none => [])
            ∧ let e := d.endClosing t
              let r := d.removeFrames t
              (∀ k, e.engine.queue k = (d.engine.queue k).filter fun f => !decide (f.tunnel = t))
              ∧ (∀ u, u ≠ t → e.tunnel u = r.tunnel u)
              ∧ { e with
                tunnels := r.tunnels, keys := { e.keys with entries := r.keys.entries }, operations := r.operations } = r)

/-- SET_HOLDS: an operand that is not LEAVE, SET or CLEAR is refused BAD_REQUEST, a tunnel that is not IN_SERVICE or
ISOLATED WRONG_STATE (where both hold, BAD_REQUEST: log 21); otherwise the OPS cause of each direction is left, set
or cleared, and an outbound OPS newly added ends an OPERATIONS proof on the tunnel (R45, R151).  Operand positions:
the model's (log 1). -/
def Obligations.HoldsAreSetAndCleared : Prop :=
  ∀ (s : State) (q : Request), s.dev.Poses .operations q 14 →
    let t := q.tunnel
    let x := s.dev.tunnel t
    let d := s.dev.taken .operations 14
    let after (operand : Nat) (b : Bool) : Bool := if operand = 0 then b else if operand = 1 then true else false
    let out := { x.outCauses with ops := after (q.num 0 1) x.outCauses.ops }
    let inn := after (q.num 1 1) x.inOps
    let e := d.modTunnel t fun x => { x with outCauses := out, inOps := inn }
    let ends := out.ops = true ∧ x.outCauses.ops = false ∧ ∃ r, s.dev.proofs.running = some r ∧ r.tunnel = t
      ∧ r.purpose = .operations
    (2 < q.num 0 1 ∨ 2 < q.num 1 1 → exec (.setHolds .operations) s = s.to (d.respond .operations q (.refusal .badRequest)))
      ∧ (q.num 0 1 ≤ 2 → q.num 1 1 ≤ 2 → x.state ≠ .inService → x.state ≠ .isolated →
        exec (.setHolds .operations) s = s.to (d.respond .operations q (.refusal .wrongState)))
      ∧ (q.num 0 1 ≤ 2 → q.num 1 1 ≤ 2 → x.state = .inService ∨ x.state = .isolated →
        (¬ ends → exec (.setHolds .operations) s =
          s.to (e.respond .operations q ⟨.done, .none, .holds out inn⟩).finish)
        ∧ (ends → exec (.setHolds .operations) s =
          s.to ((e.endProof .aborted (some .outboundCause)).respond .operations q ⟨.done, .none, .holds out inn⟩).finish))

/-- WRITE_PROFILE: a profile above 7, an unknown group or a field out of its range is refused BAD_REQUEST with the
profile unchanged; with every field in its range the fields of the group take their values, TUNNEL_FAILED added to a
report set, the other groups unchanged, and a KEYS write re-examines, in ascending tunnel number, the CURRENT key of
each IN_SERVICE, ISOLATED or FAILED tunnel that names the profile: it becomes EXPIRED by age, or SPENT by count, with
its flag, its causes and its fault, renewal due is raised, and its age deadlines are set from its age start, those
of an EXPIRED key absent (R47, R48, R49; log 27). Operand positions and codes: the model's (log 1). -/
def Obligations.ProfilesAreWrittenByGroup : Prop :=
  (∀ (s : State) (q : Request), s.dev.Poses .operations q 16 →
    let n := q.num 0 1
    let group := q.num 1 1
    let d := s.dev.taken .operations 16
    let old := s.dev.profiles.getD n Config.factoryProfile
    let keys : Profile := { old with
      softFrames := q.num 2 6, hardFrames := q.num 8 6, softAge := q.num 14 4, hardAge := q.num 18 4
      grace := q.num 22 2, followPeer := decide (q.num 24 1 = 1) }
    let condition : Profile := { old with
      keepalive := q.num 2 2, silence := q.num 4 2, interval := q.num 6 1, authThreshold := q.num 7 2
      replayThreshold := q.num 9 2, epochThreshold := q.num 11 2, persistence := q.num 13 1 }
    let report := q.num 2 1
    let action := q.num 3 1
    let faults : Profile := { old with
      report := ⟨report.testBit 0, report.testBit 1, report.testBit 2, report.testBit 3, report.testBit 4,
        report.testBit 5, true⟩
      action := ⟨action.testBit 0, action.testBit 1, action.testBit 2, action.testBit 3⟩
      holdTime := q.num 4 2, retryLimit := q.num 6 1 }
    let keysInRange := 1 ≤ keys.softFrames ∧ keys.softFrames ≤ keys.hardFrames ∧ keys.hardFrames ≤ 1099511627776
      ∧ 60 ≤ keys.softAge ∧ keys.softAge ≤ keys.hardAge ∧ keys.hardAge ≤ 2592000 ∧ 100 ≤ keys.grace
      ∧ keys.grace ≤ 60000 ∧ q.num 24 1 ≤ 1
    let conditionInRange := condition.keepalive ≤ 300 ∧ 3 ≤ condition.silence ∧ condition.silence ≤ 3600
      ∧ 1 ≤ condition.interval ∧ condition.interval ≤ 60 ∧ 1 ≤ condition.persistence ∧ condition.persistence ≤ 8
    let faultsInRange := report < 128 ∧ action < 16 ∧ 1 ≤ faults.holdTime ∧ faults.holdTime ≤ 600
      ∧ faults.retryLimit ≤ 7
    let with_ (p : Profile) : Device := { d with profiles := s.dev.profiles.set n p }
    let accepted (e : Device) := s.to (e.respond .operations q ⟨.done, .none, .empty⟩).finish
    let refused := s.to (d.respond .operations q (.refusal .badRequest))
    exec (.writeProfile .operations) s =
      if 7 < n then refused
      else match group with
        | 0 => if keysInRange then accepted ((with_ keys).reexamine n) else refused
        | 1 => if conditionInRange then accepted (with_ condition) else refused
        | 2 => if faultsInRange then accepted (with_ faults) else refused
        | _ => refused)
    ∧ (∀ (d : Device) (n : Nat),
      d.reexamine n = (List.range 480).foldl (fun d t =>
        let x := d.tunnel t
        if (x.state = .inService ∨ x.state = .isolated ∨ x.state = .failed) ∧ x.profile = some n then d.reexamineTunnel t
        else d) d)
    ∧ ∀ (d : Device) (t : Nat) (c : CurrentKey) (start : Clock),
      (d.tunnel t).current = some c → c.key.ageStart = some start →
        let p := d.profileOf t
        let age := (d.clock - start).toNat
        let expires := c.state ≠ .expired ∧ p.hardAge * 1000000 ≤ age
        let counted := c.state = .active ∧ p.hardFrames ≤ c.key.outCount
        let state : CurrentState := if expires then .expired else if counted then .spent else c.state
        let deadline (limit : Nat) : Option Clock :=
          if state ≠ .expired ∧ age < limit * 1000000 then some (start + BitVec.ofNat 48 (limit * 1000000)) else none
        let key : KeyRecord := { c.key with
          expired := if expires then .unreported .age else if counted then .unreported .spent else c.key.expired
          renewal :=
            if c.key.renewal ≠ .no then c.key.renewal
            else if p.softFrames ≤ c.key.outCount then .unreported .frames
            else if p.softAge * 1000000 ≤ age then .unreported .age
            else .no
          softDeadline := deadline p.softAge, hardDeadline := deadline p.hardAge }
        let e := d.modTunnel t fun x => { x with current := some ⟨state, key⟩ }
        let e := if expires then e.addKeyCause t .expired else e
        let e := if counted then e.addKeyCause t .spent else e
        d.reexamineTunnel t = if expires then e.tunnelFault t .keyExpired c.key.epoch else e

/-! ### Reads -/

/-- READ_SERVICE, READ_TUNNEL, READ_SLOTS and READ_PROFILE answer at once with the record as it stands and change
nothing else; READ_TUNNEL tells each slot's epoch, entry, state and marks, and READ_PROFILE the values of the group
asked for (R44, R46, R50, R52, R67, R70).  Operand positions: the model's (log 1). -/
def Obligations.TunnelReadsTellTheRecord : Prop :=
  ∀ (s : State) (q : Request),
    let d := s.dev
    let x := d.tunnel q.tunnel
    let held := x.outCauses ≠ ⟨false, false, false⟩
    let level : ServiceLevel :=
      if x.state ≠ .inService then .stopped
      else if held then (if x.inOps then .stopped else .receiveOnly)
      else if x.inOps then .sendOnly else .full
    let current (c : CurrentKey) : SlotState := match c.state with
      | .active => .active
      | .spent => .spent
      | .expired => .expired
    let next (n : NextKey) : SlotState := if n.ready then .ready else .underDerivation
    let view (k : KeyRecord) : KeyView :=
      ⟨k.epoch, k.entry, k.bound, k.retirePending, k.outCount, k.highest, k.renewal, k.expired, k.followed⟩
    let slot (k : KeyRecord) (state : SlotState) : SlotView := ⟨k.epoch, k.entry, state, k.bound, k.retirePending⟩
    let age (k : KeyRecord) : Option Nat := k.ageStart.map fun a => (d.clock - a).toNat
    (d.Poses .traffic q 5 →
      exec (.readService .traffic) s = s.to (d.answered .traffic q
        ⟨.done, .none, .service x.state level x.outCauses x.inOps (x.current.map (·.key.epoch))⟩))
      ∧ (d.Poses .operations q 15 →
        exec (.readTunnel .operations) s = s.to (d.answered .operations q ⟨.done, .none, .tunnel
          { state := x.state, level := level, outCauses := x.outCauses, inOps := x.inOps, shop := x.shop
            profile := x.profile, retryCount := x.retryCount, holdDeadline := x.holdDeadline
            awaitingRetry := d.proofs.retry.contains q.tunnel, frameCount := x.frameCount
            inDerivation := x.inDerivation, underProof := x.underProof
            next := x.next.map fun n => slot n.key (next n)
            current := x.current.map fun c => slot c.key (current c)
            previous := x.previous.map fun k => slot k .draining }⟩))
      ∧ (d.Poses .key q 9 →
        exec (.readSlots .key) s = s.to (d.answered .key q ⟨.done, .none, .slots
          { state := x.state
            nextState := (x.next.map next).getD .absent, next := x.next.map fun n => view n.key
            currentState := (x.current.map current).getD .absent, current := x.current.map fun c => view c.key
            previousState := if x.previous.isSome then .draining else .absent, previous := x.previous.map view
            currentStart := x.current.bind (·.key.ageStart), currentAge := x.current.bind fun c => age c.key
            previousStart := x.previous.bind (·.ageStart), previousAge := x.previous.bind age
            hardDeadline := x.current.bind (·.key.hardDeadline), graceDeadline := x.previous.bind (·.graceDeadline)
            freeEntries := 1024 - d.keys.entries.countP fun e => decide (e.2 ≠ .free)
            jobs := d.keys.jobs.length
            place := (d.keys.jobs.findIdx? fun j => decide (j.tunnel = q.tunnel)).map (· + 1) }⟩))
      ∧ (d.Poses .operations q 17 →
        exec (.readProfile .operations) s =
          match groupOf (q.num 1 1) with
          | none => s.to (d.answered .operations q (.refusal .badRequest))
          | some g =>
            if 7 < q.num 0 1 then s.to (d.answered .operations q (.refusal .badRequest))
            else
              let p := d.profiles.getD (q.num 0 1) Config.factoryProfile
              let values : GroupValues := match g with
                | .keys => .keys p.softFrames p.hardFrames p.softAge p.hardAge p.grace p.followPeer
                | .condition =>
                  .condition p.keepalive p.silence p.interval p.authThreshold p.replayThreshold p.epochThreshold
                    p.persistence
                | .faults => .faults p.report p.action p.holdTime p.retryLimit
              s.to (d.answered .operations q ⟨.done, .none, .profile values ((List.range 480).countP fun t =>
                decide ((d.tunnel t).state ≠ .empty ∧ (d.tunnel t).profile = some (q.num 0 1)))⟩))

/-- READ_ENGINE, READ_CONDITION, READ_DEVICE_FAULTS, READ_PROOF and READ_MONITORS answer at once with the state as it
stands and change nothing else (R107, R137, R138, R157, R169). -/
def Obligations.OperationsReadsTellTheState : Prop :=
  ∀ (s : State) (q : Request),
    let d := s.dev
    let e := d.engine
    let c := (d.tunnel q.tunnel).condition
    let waited (fs : List Frame) : Option Nat := fs.head?.map fun f => (d.clock - f.queuedAt).toNat
    (d.Poses .operations q 18 →
      exec (.readEngine .operations) s = s.to (d.answered .operations q ⟨.done, .none, .engine
        { mode := e.mode, turn := e.turn, control := e.control.length, settle := e.settle.length
          bulk := e.bulk.length, controlWaited := waited e.control, settleWaited := waited e.settle
          bulkWaited := waited e.bulk, inWork := e.inWork.map fun w => ⟨w.frame.tunnel, w.frame.flow, w.queue⟩
          placesReserved := d.generatedReserved, marks := e.marks }⟩))
      ∧ (d.Poses .operations q 20 →
        exec (.readCondition .operations) s = s.to (d.answered .operations q ⟨.done, .none, .condition
          { state := (d.tunnel q.tunnel).state, counts := c.counts
            intervalRun := c.intervalStart.map fun a => (d.clock - a).toNat, runs := c.runs, totals := c.totals
            keepalivesSent := c.keepalivesSent, keepalivesSkipped := c.keepalivesSkipped, outstanding := c.outstanding
            intervalDeadline := c.intervalDeadline, silenceDeadline := c.silenceDeadline
            keepaliveDeadline := c.keepaliveDeadline, latches := c.latches }⟩))
      ∧ (d.Poses .operations q 21 →
        exec (.readDeviceFaults .operations) s = s.to (d.answered .operations q ⟨.done, .none, .device
          ⟨d.faults, d.deviceReport, d.operations.notices.length, d.proofs.running.isSome, d.waitingFaults.length⟩⟩))
      ∧ (d.Poses .operations q 26 →
        exec (.readProof .operations) s = s.to (d.answered .operations q ⟨.done, .none, .proof
          { running := d.proofs.running
            echoLeft := match d.proofs.running.map ProofRecord.phase with
              | some (.awaitEcho _ deadline) => some (deadline - d.clock).toNat
              | _ => none
            capture := d.proofs.capture, last := d.proofs.last, serial := d.proofs.serial
            queued := d.proofs.retry.length, head := d.proofs.retry.head?, patterns := d.proofs.patterns }⟩))
      ∧ (d.Poses .operations q 31 →
        exec (.readMonitors .operations) s = s.to (d.answered .operations q ⟨.done, .none, .bank
          ⟨d.bank.state, d.bank.elapsed, d.clock, d.bank.monitors.map fun m =>
            { counter := m.counter, overflow := m.overflow, source := m.source, filter := m.filter, mode := m.mode
              compare := m.compare, threshold := m.threshold, freeze := m.freeze
              level := match m.source with
                | .level l => some (d.level l, match m.compare with
                  | .atOrAbove => decide (m.threshold ≤ d.level l)
                  | .below => decide (d.level l < m.threshold))
                | _ => none }⟩⟩))

/-! ### Faults -/

/-- An occurrence of a fault.  A clear latch is set, stamp now, count 1, unreported and offered where the kind is in
the report set and silent otherwise, and one "faults latched" event is given; an action kind on an IN_SERVICE tunnel
then isolates it with its hold begun, which ends an OPERATIONS proof on it.  A set latch counts the occurrence,
stopping at 65,535, and nothing else changes.  A device fault is the same with the device report set, and has no
action (R128, R129, R130, R131, R133).  A running proof on the tunnel of a purpose that the cause reaches ends
ABORTED with that cause, ISOLATED reaching OPERATIONS proofs only; a key cause newly added ends a proof of either
purpose, cause OUTBOUND_CAUSE, and one already present ends nothing (R43, R151).  Freed places are offered to the
latches that wait in scan order: the device kinds in their order, then the tunnels ascending, each tunnel's kinds in
theirs (R132). -/
def Obligations.FaultsLatchOnce : Prop :=
  (∀ (d : Device) (t : Nat) (k : TunnelFault) (detail : Nat),
    let x := d.tunnel t
    let p := d.profileOf t
    (∀ l, d.latch t k = some l →
      d.tunnelFault t k detail = d.setLatch t k (some { l with observed := min (l.observed + 1) 65535 }))
      ∧ (d.latch t k = none →
        let isolates := p.action.has k && decide (x.state = .inService)
        let l : Latch := ⟨if p.report.has k then .unreported else .silent, d.clock, 1, detail, isolates⟩
        let e := d.setLatch t k (some l)
        let e : Device :=
          if p.report.has k ∧ d.opsTaken < 128 then
            (e.setLatch t k (some { l with report := .reported })).pushNotice .operations
              ⟨some t, d.clock, .tunnelFault k { l with report := .reported } x.state⟩
          else e
        let e := e.give .faultsLatched (some t)
        d.tunnelFault t k detail =
          if isolates then
            (e.modTunnel t fun x =>
              { x with state := .isolated, holdDeadline := some (d.after (p.holdTime * 1000000)) }).abortProof t .isolated
                onlyOperations
          else e))
    ∧ (∀ (d : Device) (k : DeviceFault) (detail : Nat),
      (∀ l, d.faults.get k = some l →
        d.deviceFault k detail =
          { d with faults := d.faults.set k (some { l with observed := min (l.observed + 1) 65535 }) })
        ∧ (d.faults.get k = none →
          let l : Latch := ⟨if d.deviceReport.has k then .unreported else .silent, d.clock, 1, detail, false⟩
          let e : Device :=
            if d.deviceReport.has k ∧ d.opsTaken < 128 then
              { d with faults := d.faults.set k (some { l with report := .reported }) }.pushNotice .operations
                ⟨none, d.clock, .deviceFault k { l with report := .reported }⟩
            else { d with faults := d.faults.set k (some l) }
          d.deviceFault k detail = e.give .faultsLatched none))
    ∧ (∀ d : Device,
      let waits (l : Option Latch) : Bool := l.any fun l => decide (l.report = .unreported)
      d.waitingFaults =
          (([DeviceFault.keystoreLow, .reserveExhausted, .monitorOverflow, .settingsDefaulted].filter fun k =>
            waits (d.faults.get k)).map FaultRef.device)
          ++ (List.range 480).flatMap (fun t =>
            ([TunnelFault.authStorm, .replayStorm, .epochDrift, .shopSilent, .keyExpired, .proofFailed,
              .tunnelFailed].filter fun k => waits (d.latch t k)).map (FaultRef.tunnel t))
        ∧ (∀ places, d.faultScan places = (d.waitingFaults.take places).foldl Device.offer d)
        ∧ (∀ k l, d.faults.get k = some l → l.report = .unreported →
          d.offer (.device k) =
            if d.opsTaken < 128 then
              { d with faults := d.faults.set k (some { l with report := .reported }) }.pushNotice .operations
                ⟨none, d.clock, .deviceFault k { l with report := .reported }⟩
            else d)
        ∧ ∀ t k l, d.latch t k = some l → l.report = .unreported →
          d.offer (.tunnel t k) =
            if d.opsTaken < 128 then
              (d.setLatch t k (some { l with report := .reported })).pushNotice .operations
                ⟨some t, d.clock, .tunnelFault k { l with report := .reported } (d.tunnel t).state⟩
            else d)
    ∧ (∀ purpose, onlyOperations purpose = decide (purpose = .operations))
    ∧ (∀ (d : Device) (t : Nat) (cause : AbortCause) (reaches : Purpose → Bool),
      (∀ r, d.proofs.running = some r → r.tunnel = t → reaches r.purpose = true →
        d.abortProof t cause reaches = d.endProof .aborted (some cause))
        ∧ ((∀ r, d.proofs.running = some r → r.tunnel = t → reaches r.purpose = false) →
          d.abortProof t cause reaches = d))
    ∧ ∀ (d : Device) (t : Nat) (c : KeyCause),
      let x := d.tunnel t
      let present : Bool := match c with
        | .spent => x.outCauses.keySpent
        | .expired => x.outCauses.keyExpired
      let e := d.modTunnel t fun y => { y with outCauses := match c with
        | .spent => { y.outCauses with keySpent := true }
        | .expired => { y.outCauses with keyExpired := true } }
      (present = true → d.addKeyCause t c = e)
        ∧ (present = false →
          (∀ r, d.proofs.running = some r → r.tunnel = t →
            d.addKeyCause t c = e.endProof .aborted (some .outboundCause))
          ∧ ((∀ r, d.proofs.running = some r → r.tunnel ≠ t) → d.addKeyCause t c = e))

/-- ACK_FAULT of a tunnel's latch or of a device latch: a kind that is not one of its target's is refused
BAD_REQUEST; a clear latch is answered NOT_SET with nothing changed; a set latch is cleared, the run of a storm kind
becomes 0, its notice leaves the queue with the freed place offered to waiting faults, and CLEARED carries the stamp
and the observed count (R132, R135, R141).  Operand positions and kind numbers are the model's (log 1), and so is
DEVICE as the least significant bit of the flags, flags 1 (log 42). -/
def Obligations.AcknowledgedLatchesClear : Prop :=
  ∀ (s : State) (q : Request), s.dev.Poses .operations q 19 →
    let t := q.tunnel
    let kind := q.num 0 1
    let d := s.dev.taken .operations 19
    let without (e : Device) (gone : Notice → Bool) : Device :=
      let freed := e.operations.notices.countP gone
      if freed = 0 then e
      else ((e.modPort .operations fun y =>
        { y with notices := y.notices.filter fun n => !gone n }).faultScan freed).retryStartTest
    (q.flags = 0 →
      exec (.ackFault .operations) s =
        match TunnelFault.all[kind]? with
        | none => s.to (d.respond .operations q (.refusal .badRequest))
        | some k =>
          match s.dev.latch t k with
          | none => s.to (d.respond .operations q ⟨.done, .notSet, .empty⟩)
          | some l =>
            let e := (d.setLatch t k none).modTunnel t fun x =>
              { x with condition := { x.condition with runs := match k with
                  | .authStorm => { x.condition.runs with authFail := 0 }
                  | .replayStorm => { x.condition.runs with replay := 0 }
                  | .epochDrift => { x.condition.runs with epochMiss := 0 }
                  | _ => x.condition.runs } }
            s.to ((without e fun n => match n.body with
              | .tunnelFault k' .. => decide (n.tunnel = some t ∧ k' = k)
              | _ => false).respond .operations q ⟨.done, .cleared, .cleared l.stamp l.observed⟩).finish)
      ∧ (q.flags = 1 →
        exec (.ackFault .operations) s =
          if kind < 7 ∨ 10 < kind then s.to (d.respond .operations q (.refusal .badRequest))
          else
            let k := (DeviceFault.all[kind - 7]?).getD .keystoreLow
            match s.dev.faults.get k with
            | none => s.to (d.respond .operations q ⟨.done, .notSet, .empty⟩)
            | some l =>
              s.to ((without { d with faults := s.dev.faults.set k none } fun n => match n.body with
                | .deviceFault k' _ => decide (k' = k)
                | _ => false).respond .operations q ⟨.done, .cleared, .cleared l.stamp l.observed⟩).finish)

/-- INTERVAL_EXPIRY, SILENCE_EXPIRY and KEEPALIVE_EXPIRY where the clock has come to the deadline (R122, R124, R125,
R126, R20).  Elsewhere the event cannot occur, and the model changes nothing (log 6). -/
def Obligations.ConditionTimersExpire : Prop :=
  ∀ (s : State) (t : Nat),
    let x := s.dev.tunnel t
    let c := x.condition
    let p := s.dev.profileOf t
    let deadline (n : Nat) : Clock := s.dev.after (n * 1000000)
    let restarted : Option Clock := if p.keepalive = 0 then none else some (deadline p.keepalive)
    let run (threshold count run : Nat) : Nat := if threshold = 0 ∨ count < threshold then 0 else min (run + 1) 8
    let runs : StormCounts :=
      ⟨run p.authThreshold c.counts.authFail c.runs.authFail, run p.replayThreshold c.counts.replay c.runs.replay,
        run p.epochThreshold c.counts.epochMiss c.runs.epochMiss⟩
    let change (d : Device) (f : Condition → Condition) : Device :=
      d.modTunnel t fun x => { x with condition := f x.condition }
    let occurs (d : Device) (runs : Nat) (k : TunnelFault) (count : Nat) : Device :=
      if p.persistence ≤ runs then d.tunnelFault t k count else d
    (c.intervalDeadline = some s.dev.clock →
      let e := change s.dev fun c => { c with runs := runs }
      let e := occurs e runs.authFail .authStorm c.counts.authFail
      let e := occurs e runs.replay .replayStorm c.counts.replay
      let e := occurs e runs.epochMiss .epochDrift c.counts.epochMiss
      exec (.intervalExpiry t) s =
        s.to (e.modTunnel t fun x =>
          { x with condition := { x.condition with
              counts := ⟨0, 0, 0⟩, intervalStart := some s.dev.clock
              intervalDeadline := some (deadline p.interval)
              keepaliveDeadline :=
                if x.condition.keepaliveDeadline = none
                    ∧ (x.state = .inService ∨ x.state = .isolated ∨ x.state = .failed) then restarted
                else x.condition.keepaliveDeadline } }).finish)
      ∧ (c.intervalDeadline ≠ some s.dev.clock → exec (.intervalExpiry t) s = .next s)
      ∧ (c.silenceDeadline = some s.dev.clock →
        exec (.silenceExpiry t) s =
          s.to (change (s.dev.tunnelFault t .shopSilent p.silence) fun c =>
            { c with silenceDeadline := some (deadline p.silence) }).finish)
      ∧ (c.silenceDeadline ≠ some s.dev.clock → exec (.silenceExpiry t) s = .next s)
      ∧ (c.keepaliveDeadline = some s.dev.clock →
        let e := change s.dev fun c => { c with keepaliveDeadline := restarted }
        let wanted := (x.state = .inService ∨ x.state = .isolated)
          ∧ x.current.any (fun k => decide (k.state = .active)) = true ∧ c.outstanding = false
        let cells := s.dev.store.lowestFree 1
        let f : Frame :=
          ⟨.conditionMonitor, 0, t, .outbound .keepalive, cells, [], s.dev.clock, true, false, false, none⟩
        let built : Device :=
          { e with
            store := (e.store.take .reserved .queued cells).lay cells []
            engine := { e.engine with control := e.engine.control ++ [f] } }.modTunnel t fun x =>
              { x with frameCount := x.frameCount + 1 }
        let skip (d : Device) : Device :=
          (change d fun c => { c with keepalivesSkipped := min (c.keepalivesSkipped + 1) 4294967295 }).give
            .keepalivesSkipped (some t)
        exec (.keepaliveExpiry t) s =
          if ¬ wanted then s.to e.finish
          else if 256 < s.dev.store.charged .reserved + 1 then s.to (skip (e.deviceFault .reserveExhausted 0)).finish
          else if 64 ≤ s.dev.engine.control.length ∨ 64 ≤ s.dev.traffic.notices.length + s.dev.generatedReserved then
            s.to (skip e).finish
          else s.to (change built fun c => { c with outstanding := true }).finish)
      ∧ (c.keepaliveDeadline ≠ some s.dev.clock → exec (.keepaliveExpiry t) s = .next s)

/-! ### Proofs -/

/-- HOLD_EXPIRY and ECHO_DEADLINE_EXPIRY where the clock has come to the deadline: the tunnel joins the tail of the
retry queue and the retry start test is made (R140, R141); a miss of kind TIMEOUT counts, and a STOP_FIRST proof ends
MISSED with its capture record, a CONTINUOUS one advances (R147, R148); so does a miss of kind MISMATCH, whose
capture record holds the length received and the first offset at which the payloads differ with its bytes (R147).  An
advance goes to the next active entry and attempts its frame at once, or completes a round, which ends the proof when
the rounds asked for are done (R148).  Elsewhere the event cannot occur, and the model changes nothing (log 6). -/
def Obligations.ProofDeadlinesExpire : Prop :=
  ∀ (s : State) (t : Nat),
    ((s.dev.tunnel t).holdDeadline = some s.dev.clock →
      let d := s.dev.modTunnel t fun x => { x with holdDeadline := none }
      exec (.holdExpiry t) s =
        s.to ({ d with proofs := { d.proofs with retry := d.proofs.retry ++ [t] } }.retryStartTest).finish)
      ∧ ((s.dev.tunnel t).holdDeadline ≠ some s.dev.clock → exec (.holdExpiry t) s = .next s)
      ∧ (∀ r serial, s.dev.proofs.running = some r → r.phase = .awaitEcho serial s.dev.clock →
        let missed := { r with misses := r.misses.modify r.entry fun n => min (n + 1) 65535 }
        let d := (s.dev.setProof (some missed)).give .proofMisses (some r.tunnel)
        let capture : Capture :=
          ⟨r.tunnel, r.completed + 1, r.entry, serial, .timeout, none, none, none, none⟩
        exec .echoDeadlineExpiry s =
          match r.mode with
          | .stopFirst => s.to ({ d with proofs := { d.proofs with capture := some capture } }.endProof .missed none).finish
          | .continuous => s.to d.advanceProof.finish)
      ∧ ((∀ r serial, s.dev.proofs.running = some r → r.phase ≠ .awaitEcho serial s.dev.clock) →
        exec .echoDeadlineExpiry s = .next s)
      ∧ (∀ (d : Device) (r : ProofRecord) (serial : BitVec 32) (echo : List Byte), d.proofs.running = some r →
        let sent := proofPayload (d.proofs.patterns.getD r.entry ⟨0, 0, 0⟩) serial
        let shorter := min sent.length echo.length
        let missed := { r with misses := r.misses.modify r.entry fun n => min (n + 1) 65535 }
        let e := (d.setProof (some missed)).give .proofMisses (some r.tunnel)
        ∃ o, (∀ i, 4 ≤ i → i < o → i < shorter ∧ sent[i]? = echo[i]?) ∧ (4 ≤ shorter → 4 ≤ o ∧ o ≤ shorter)
          ∧ (o < shorter → sent[o]? ≠ echo[o]?)
          ∧ d.proofMiss r serial .mismatch (some echo) = match r.mode with
            | .stopFirst =>
              { e with proofs := { e.proofs with
                capture := some ⟨r.tunnel, r.completed + 1, r.entry, serial, .mismatch, some echo.length, some o,
                  sent[o]?, echo[o]?⟩ } }.endProof .missed none
            | .continuous => e.advanceProof)
      ∧ ∀ (d : Device) (r : ProofRecord), d.proofs.running = some r →
        let active (k : Nat) := k < 8 ∧ (d.proofs.patterns.getD k ⟨0, 0, 0⟩).length ≠ 0
        let wait (r : ProofRecord) (k : Nat) : Device :=
          (d.setProof (some { r with entry := k, phase := .waitCell })).buildAttempt
        (∀ k, active k → r.entry < k → (∀ j, r.entry < j → j < k → ¬ active j) → d.advanceProof = wait r k)
          ∧ ((∀ k, r.entry < k → ¬ active k) →
            let round := { r with completed := min (r.completed + 1) 4294967295 }
            (r.requested ≠ 0 → round.completed = r.requested →
              d.advanceProof =
                (d.setProof (some round)).endProof (if ∀ n ∈ r.misses, n = 0 then .passed else .missed) none)
            ∧ (r.requested = 0 ∨ round.completed ≠ r.requested →
              ∀ k, active k → (∀ j, j < k → ¬ active j) → d.advanceProof = wait round k))

/-- START_PROOF and STOP_PROOF: their tests in order; a start sets the proof record on the lowest active entry,
removes the capture record, marks the tunnel, and makes the first attempt; a stop ends an OPERATIONS proof STOPPED
(R143, R154, R155).  Operand positions: the model's (log 1). -/
def Obligations.ProofsStartAndStopOnRequest : Prop :=
  (∀ (s : State) (q : Request), s.dev.Poses .operations q 22 →
    let t := q.tunnel
    let x := s.dev.tunnel t
    let mode := q.num 0 1
    let rounds := q.num 1 2
    let d := s.dev.taken .operations 22
    let u := s.dev.proofs
    let first := ((List.range 8).find? fun i => decide ((u.patterns.getD i ⟨0, 0, 0⟩).length ≠ 0)).getD 0
    let record : ProofRecord :=
      ⟨t, .operations, if mode = 0 then .stopFirst else .continuous, rounds, 0, first, .waitCell, List.replicate 8 0, 0, 0⟩
    let started : Device :=
      ({ d with proofs := { u with running := some record, capture := none } }.modTunnel t fun x =>
        { x with underProof := true }).buildAttempt
    exec (.startProof .operations) s =
      if 1 < mode ∨ 255 < rounds ∨ (rounds = 0 ∧ mode = 0) then s.to (d.respond .operations q (.refusal .badRequest))
      else if u.running ≠ none ∨ u.retry ≠ [] then s.to (d.respond .operations q (.refusal .proofBusy))
      else if x.state ≠ .inService ∨ x.outCauses ≠ ⟨false, false, false⟩ then
        s.to (d.respond .operations q (.refusal .wrongState))
      else if 128 ≤ s.dev.operations.notices.length then s.to (d.respond .operations q (.refusal .noticeFull))
      else s.to (started.respond .operations q ⟨.done, .none, .empty⟩).finish)
    ∧ ∀ (s : State) (q : Request), s.dev.Poses .operations q 23 →
      let d := s.dev.taken .operations 23
      exec (.stopProof .operations) s =
        if (s.dev.proofs.running.map ProofRecord.purpose) = some .operations then
          s.to ((d.endProof .stopped none).respond .operations q ⟨.done, .none, .empty⟩).finish
        else s.to (d.respond .operations q (.refusal .wrongState))

/-- The end of a proof, in its order: the engine is IDLE with the last result set, the tunnel's mark is cleared, a RETRY
proof's result is taken on its tunnel, PROOF_DONE is queued, a fault that the end brings is latched, and the retry start
test is made (R149, R150).  That an ABORTED RETRY proof that takes its tunnel to FAILED latches TUNNEL_FAILED is the
model's reading of R149 (log 43). -/
def Obligations.ProofsEndInOrder : Prop :=
  ∀ (d : Device) (r : ProofRecord) (result : ProofResult) (cause : Option AbortCause), d.proofs.running = some r →
    let t := r.tunnel
    let misses := r.misses.sum
    let last : LastResult := ⟨t, r.purpose, r.mode, result, r.completed, r.sent, misses, r.strays, d.clock⟩
    let failed := result = .missed
      ∨ (result = .aborted ∧ (cause = some .keyUnusable ∨ cause = some .notInService ∨ cause = some .outboundCause))
    let p := d.profileOf t
    let e := { d with proofs := { d.proofs with running := none, last := some last } }.modTunnel t fun x =>
      { x with underProof := false }
    let e : Device :=
      if r.purpose = .operations then e
      else if result = .passed then e.modTunnel t fun x => { x with state := .inService, retryCount := 0 }
      else if ¬ failed then e
      else e.modTunnel t fun x =>
        if x.retryCount + 1 ≤ p.retryLimit then
          { x with retryCount := x.retryCount + 1, holdDeadline := some (d.after (p.holdTime * 1000000)) }
        else { x with retryCount := x.retryCount + 1, state := .failed, holdDeadline := none }
    let x := e.tunnel t
    let e := e.pushNotice .operations ⟨some t, d.clock, .proofDone r.purpose r.mode result cause r.completed r.sent misses
      r.strays d.proofs.capture.isSome x.state x.retryCount⟩
    d.endProof result cause =
      (if r.purpose = .operations ∧ result = .missed then e.latchTunnel t .proofFailed misses false
        else if r.purpose = .retry ∧ failed ∧ x.state = .failed then e.latchTunnel t .tunnelFailed x.retryCount false
        else e).retryStartTest

/-- RESTORE_TUNNEL makes a FAILED tunnel ISOLATED with retry count 0 and no hold, and it joins the retry queue (R156).
RETRY_START: the retry start test passes when no proof runs, the retry queue is not empty and fewer than 128 notices are
held; the head then leaves the queue and a RETRY proof of one STOP_FIRST round starts on it, with its first attempt
(R141, R143).  That the test may also be posted as a command of its own is the model's (log 14), and so is that the
command changes nothing where the test fails (log 6). -/
def Obligations.RestoredTunnelsAreRetried : Prop :=
  (∀ (s : State) (q : Request), s.dev.Poses .operations q 24 →
    let t := q.tunnel
    let d := s.dev.taken .operations 24
    let e := d.modTunnel t fun x => { x with state := .isolated, retryCount := 0, holdDeadline := none }
    exec (.restoreTunnel .operations) s =
      if (s.dev.tunnel t).state ≠ .failed then s.to (d.respond .operations q (.refusal .wrongState))
      else
        s.to (({ e with proofs := { e.proofs with retry := e.proofs.retry ++ [t] } }.retryStartTest).respond .operations q
          ⟨.done, .none, .empty⟩).finish)
    ∧ (∀ s : State, exec .retryStart s = s.to s.dev.retryStartTest.finish)
    ∧ ∀ d : Device,
      (∀ t rest, d.proofs.running = none → d.proofs.retry = t :: rest → d.operations.notices.length < 128 →
        let first := ((List.range 8).find? fun i => decide ((d.proofs.patterns.getD i ⟨0, 0, 0⟩).length ≠ 0)).getD 0
        d.retryStartTest =
          ({ d with proofs := { d.proofs with
              running := some ⟨t, .retry, .stopFirst, 1, 0, first, .waitCell, List.replicate 8 0, 0, 0⟩
              capture := none, retry := rest } }.modTunnel t fun x => { x with underProof := true }).buildAttempt)
        ∧ (d.proofs.running ≠ none ∨ d.proofs.retry = [] ∨ 128 ≤ d.operations.notices.length → d.retryStartTest = d)

/-- PROOF_BUILD_ATTEMPT while a proof waits for room: where the reserved pool cannot grant the cells the fault
RESERVE_EXHAUSTED occurs; where CONTROL or the traffic port's notice places are full nothing is charged; otherwise the
serial advances, with 1 after FFFFFFFFh, and the frame of the current entry is laid in the lowest FREE cells, reserved,
and placed in CONTROL with its notice place (R13, R19, R20, R144).  The attempt as a command of its own is the model's
(log 14); with no proof waiting it cannot occur, and nothing is attempted (log 6). -/
def Obligations.ProofFramesAreBuiltWhenRoomAppears : Prop :=
  ∀ (s : State),
    let d : Device := { s.dev with buildDue := false }
    (∀ r, s.dev.proofs.running = some r → r.phase = .waitCell →
      let pattern := s.dev.proofs.patterns.getD r.entry ⟨0, 0, 0⟩
      let n := (pattern.length + 32 + 255) / 256
      let serial : BitVec 32 := if s.dev.proofs.serial = 0xFFFFFFFF then 1 else s.dev.proofs.serial + 1
      let payload := beBytes 4 serial.toNat ++ (List.range (pattern.length - 4)).map fun j =>
        BitVec.ofNat 8 (pattern.seed + ((j + 4) % 256) * pattern.step)
      let cells := s.dev.store.lowestFree n
      let f : Frame :=
        ⟨.proofEngine, 0, r.tunnel, .outbound .proof, cells, payload, s.dev.clock, true, false, false,
          some (serial, r.entry)⟩
      exec .proofBuildAttempt s =
        if 256 < s.dev.store.charged .reserved + n then s.to (d.deviceFault .reserveExhausted 0).finish
        else if 64 ≤ s.dev.engine.control.length ∨ 64 ≤ s.dev.traffic.notices.length + s.dev.generatedReserved then
          s.to d.finish
        else
          s.to ({ d with
            proofs := { d.proofs with serial := serial, running := some { r with phase := .inFlight serial } }
            store := (d.store.take .reserved .queued cells).lay cells payload
            engine := { d.engine with control := d.engine.control ++ [f] } }.modTunnel r.tunnel
              fun x => { x with frameCount := x.frameCount + 1 }).finish)
      ∧ (s.dev.proofWaits = false → exec .proofBuildAttempt s = s.to d.finish)

/-- WRITE_PATTERN: an entry above 7, a length other than 0 or 16..1472, a seed or step above 255, or a write that
would leave no entry active is refused BAD_REQUEST, one while a proof runs PROOF_BUSY (where both hold, BAD_REQUEST:
log 21); otherwise the entry takes the values (R153).  Operand positions: the model's (log 1). -/
def Obligations.PatternsAreWrittenBetweenProofs : Prop :=
  ∀ (s : State) (q : Request), s.dev.Poses .operations q 25 →
    let k := q.num 0 1
    let length := q.num 1 2
    let seed := q.num 3 2
    let step := q.num 5 2
    let d := s.dev.taken .operations 25
    let table := s.dev.proofs.patterns.set k ⟨length, seed, step⟩
    exec (.writePattern .operations) s =
      if 7 < k ∨ ¬ (length = 0 ∨ (16 ≤ length ∧ length ≤ 1472)) ∨ 255 < seed ∨ 255 < step
          ∨ ∀ p ∈ table, p.length = 0 then s.to (d.respond .operations q (.refusal .badRequest))
      else if s.dev.proofs.running ≠ none then s.to (d.respond .operations q (.refusal .proofBusy))
      else
        s.to ({ d with proofs := { d.proofs with patterns := table } }.respond .operations q ⟨.done, .none, .empty⟩)

/-! ### The monitor bank and the clock -/

/-- SET_MONITOR: the refusals, and on acceptance the programming takes the new values, the counter is the preload,
the overflow latch is cleared, condition held of an EDGE monitor is judged from the level as it stands, the other
monitors and the bank's state stand, and the response carries the counter replaced and the latch cleared (R159,
R165).  The order among refusals that meet in one request is the model's (log 20).  The operands name
the source, the filter, the mode, the compare, the threshold and the freeze; a value that names none of them is no
program (their positions and numbers: the model's, log 1). -/
def Obligations.MonitorsTakeTheirProgram : Prop :=
  ∀ (s : State) (q : Request), s.dev.Poses .operations q 27 →
    let d := s.dev.taken .operations 27
    let refused (st : Status) := exec (.setMonitor .operations) s = s.to (d.respond .operations q (.refusal st))
    let sources : List Source :=
      [.none, .event .framesSent, .event .framesAccepted, .event .authFail, .event .replay, .event .epochMiss,
        .event .malformed, .event .dialoguesDropped, .event .keepalivesSent, .event .keepalivesSkipped,
        .event .promotions, .event .follows, .event .earlyRetires, .event .derivations, .event .claimsRefused,
        .event .settleFirstEntries, .event .bulkRescueEntries, .event .faultsLatched, .event .proofMisses,
        .event .strayEchoes, .level .settleOccupancy, .level .bulkOccupancy, .level .freeCells,
        .level .freeKeyEntries, .level .engineBusy]
    let filters : List Filter := [.all, .one (q.num 3 2), .profile (q.num 3 2)]
    let names (m : Monitor) : Prop :=
      sources[q.num 1 1]? = some m.source ∧ filters[q.num 2 1]? = some m.filter
        ∧ [CountMode.count, .duration, .edge][q.num 5 1]? = some m.mode
        ∧ [Compare.atOrAbove, .below][q.num 6 1]? = some m.compare ∧ m.threshold = q.num 7 2
        ∧ [false, true][q.num 9 1]? = some m.freeze
    ((∀ m, ¬ names m) → refused .badRequest)
      ∧ ∀ m, names m →
        let carriesNone := match m.source with
          | .event .claimsRefused | .event .settleFirstEntries | .event .bulkRescueEntries | .level _ | .none => True
          | _ => False
        let fits := match m.source with
          | .level l => m.mode ≠ .count ∧ m.threshold ≤ (match l with
              | .settleOccupancy => 384
              | .bulkOccupancy => 576
              | .freeCells => 2048
              | .freeKeyEntries => 1024
              | .engineBusy => 1) + 1
          | _ => m.mode = .count ∧ m.compare = .atOrAbove ∧ m.threshold = 0
        let inRange := q.num 0 1 ≤ 11 ∧ q.num 10 6 < 2 ^ 40
        (¬ inRange → refused .badRequest)
          ∧ (inRange → (∃ t, m.filter = .one t ∧ 480 ≤ t) → refused .noTunnel)
          ∧ (inRange → (∃ n, m.filter = .profile n ∧ 7 < n) → refused .badRequest)
          ∧ (inRange → (∀ t, m.filter = .one t → t < 480) → carriesNone → m.filter ≠ .all → refused .badRequest)
          ∧ (inRange → (∀ t, m.filter = .one t → t < 480) → ¬ fits → refused .badRequest)
          ∧ (inRange → (∀ t, m.filter = .one t → t < 480) → (∀ n, m.filter = .profile n → n ≤ 7) →
            (carriesNone → m.filter = .all) → fits →
              let old := s.dev.bank.monitors.getD (q.num 0 1) Monitor.initial
              let set := { m with
                counter := BitVec.ofNat 40 (q.num 10 6), overflow := false
                held := if m.mode = .edge then some (s.dev.conditionHolds m) else none }
              exec (.setMonitor .operations) s =
                s.to ({ d with bank := { d.bank with
                  monitors := d.bank.monitors.set (q.num 0 1) set } }.respond .operations q
                    ⟨.done, .none, .replaced old.counter old.overflow⟩))

/-- FREEZE_MONITORS, THAW_MONITORS and CLEAR_MONITORS (R167, R168). -/
def Obligations.TheBankFreezesThawsAndClears : Prop :=
  ∀ (s : State) (q : Request),
    let bank := s.dev.bank
    let answer (code : Nat) (b : Bank) (o : Result) (body : Body) : Host.Outcome State Fault Refusal :=
      s.to ({ s.dev.taken .operations code with bank := b }.respond .operations q ⟨.done, o, body⟩)
    (s.dev.Poses .operations q 28 →
      exec (.freezeMonitors .operations) s =
        if bank.state = .counting then
          answer 28 { bank with state := .frozen .request } .frozen (.elapsed bank.elapsed)
        else answer 28 bank .alreadyFrozen (.elapsed bank.elapsed))
      ∧ (s.dev.Poses .operations q 29 →
        exec (.thawMonitors .operations) s =
          if bank.state = .counting then answer 29 bank .alreadyCounting (.elapsed bank.elapsed)
          else answer 29 { bank with state := .counting } .counting (.elapsed bank.elapsed))
      ∧ (s.dev.Poses .operations q 30 →
        exec (.clearMonitors .operations) s =
          answer 30 { bank with
            monitors := bank.monitors.map fun m => { m with counter := 0, overflow := false }, elapsed := 0 } .none .empty)
      ∧ ∀ p, p ≠ .operations → s.dev.Offers p q 1 →
        (q.code = 28 → exec (.freezeMonitors p) s = s.to (s.dev.answered p q (.refusal .wrongPort)))
        ∧ (q.code = 29 → exec (.thawMonitors p) s = s.to (s.dev.answered p q (.refusal .wrongPort)))
        ∧ (q.code = 30 → exec (.clearMonitors p) s = s.to (s.dev.answered p q (.refusal .wrongPort)))

/-- DEVICE_CLOCK_ADVANCE: while the bank is COUNTING, the elapsed counter and every DURATION monitor whose condition
holds advance; the clock advances by one; a counter that wrapped with freeze on overflow freezes the bank, cause
OVERFLOW, and MONITOR_OVERFLOW occurs; then the deadlines of the value to which the clock has come expire, each the
event of the command of its name, in an order left open (log 7): the deadlines that are present and equal the clock, of
the 480 tunnels and of the echo awaited, each once (R185).  An event given to a COUNTING bank advances every
monitor of its source whose filter passes it; a FROZEN bank counts nothing (R160, R162, R163, R166, R185). At the end
of an event an EDGE monitor whose condition now holds and did not before advances while the bank is COUNTING, and
condition held follows the level in every case, FROZEN included; then a freeze that is due is made (R164, R166). -/
def Obligations.TheClockAndTheBankCount : Prop :=
  let counted (b : Bank) (hit : Monitor → Bool) : Bank :=
    { b with
      monitors := b.monitors.map fun m =>
        if hit m then { m with counter := m.counter + 1, overflow := m.overflow || decide (m.counter = BitVec.allOnes 40) }
        else m
      freezeDue := b.freezeDue || b.monitors.any fun m => hit m && decide (m.counter = BitVec.allOnes 40) && m.freeze }
  let frozen (d : Device) : Device :=
    if d.bank.freezeDue then
      { d with bank := { d.bank with state := .frozen .overflow, freezeDue := false } }.deviceFault .monitorOverflow 0
    else d
  (∀ s : State,
    let d := s.dev
    let lasts (m : Monitor) : Bool := decide (m.mode = .duration) && d.conditionHolds m
    let bank : Bank :=
      if d.bank.state = .counting then { counted d.bank lasts with elapsed := d.bank.elapsed + 1 } else d.bank
    let advanced := frozen { d with bank := bank, clock := d.clock + 1 }
    (advanced.dueNow = [] → exec .deviceClockAdvance s = s.to advanced)
      ∧ (advanced.dueNow ≠ [] → ∃ order : List Due, order.Perm advanced.dueNow
        ∧ exec .deviceClockAdvance s = s.to (order.foldl Device.expire { advanced with draws := advanced.draws + 1 })))
    ∧ (∀ (d : Device) (e : EventSource) (carried : Option Nat),
      let passes (f : Filter) : Bool := match f with
        | .all => true
        | .one t => decide (carried = some t)
        | .profile n => carried.any fun t => decide ((d.tunnel t).state ≠ .empty ∧ (d.tunnel t).profile = some n)
      d.give e carried =
        if d.bank.state = .counting then
          { d with bank := counted d.bank fun m => decide (m.source = .event e) && passes m.filter }
        else d)
    ∧ (∀ d : Device, d.freezeOnOverflow = frozen d)
    ∧ (∀ d : Device,
      let level (l : LevelSource) : Nat := match l with
        | .settleOccupancy => d.engine.settle.length
        | .bulkOccupancy => d.engine.bulk.length
        | .freeCells => d.store.freeCount
        | .freeKeyEntries => 1024 - d.keys.entries.countP fun e => decide (e.2 ≠ .free)
        | .engineBusy => if d.engine.inWork.isSome then 1 else 0
      let holds (m : Monitor) : Bool := match m.source with
        | .level l => match m.compare with
          | .atOrAbove => decide (m.threshold ≤ level l)
          | .below => decide (level l < m.threshold)
        | _ => false
      let bank : Bank :=
        if d.bank.state = .counting then
          counted d.bank fun m => decide (m.mode = .edge) && decide (m.held = some false) && holds m
        else d.bank
      (∀ m, d.conditionHolds m = holds m)
        ∧ d.closeEvent = frozen { d with bank := { bank with
          monitors := bank.monitors.map fun m => if m.mode = .edge then { m with held := some (holds m) } else m } })
    ∧ (∀ d : Device, d.dueNow.Nodup ∧ ∀ x,
      let present : Prop := match x with
        | .grace t => t < 480 ∧ ∃ k, (d.tunnel t).previous = some k ∧ k.graceDeadline = some d.clock
        | .softAge t => t < 480 ∧ ∃ c, (d.tunnel t).current = some c ∧ c.key.softDeadline = some d.clock
        | .hardAge t => t < 480 ∧ ∃ c, (d.tunnel t).current = some c ∧ c.key.hardDeadline = some d.clock
        | .interval t => t < 480 ∧ (d.tunnel t).condition.intervalDeadline = some d.clock
        | .silence t => t < 480 ∧ (d.tunnel t).condition.silenceDeadline = some d.clock
        | .keepalive t => t < 480 ∧ (d.tunnel t).condition.keepaliveDeadline = some d.clock
        | .hold t => t < 480 ∧ (d.tunnel t).holdDeadline = some d.clock
        | .echo => ∃ r serial, d.proofs.running = some r ∧ r.phase = .awaitEcho serial d.clock
      x ∈ d.dueNow ↔ present)
    ∧ ∀ (s : State) (x : Due),
      let command : Instr := match x with
        | .grace t => .graceExpiry t
        | .softAge t => .softAgeExpiry t
        | .hardAge t => .hardAgeExpiry t
        | .interval t => .intervalExpiry t
        | .silence t => .silenceExpiry t
        | .keepalive t => .keepaliveExpiry t
        | .hold t => .holdExpiry t
        | .echo => .echoDeadlineExpiry
      exec command s = s.to (s.dev.expire x)
end

