-- ==== Sys2Proof/Laws/Data.lean ====
section
/-! SUPPORT. Data by key: what is read after a write, and that every operation keeps the canonical form. -/

namespace Sys2Proof.Machine

variable {α : Type}

theorem SMap.get_head (d x : α) (a : Nat) (m : SMap α) : SMap.get d ((a, x) :: m) a = x := by
  unfold SMap.get; exact if_pos rfl

theorem SMap.get_tail (d x : α) (a k : Nat) (m : SMap α) (h : a ≠ k) :
    SMap.get d ((a, x) :: m) k = SMap.get d m k := by
  conv => lhs; unfold SMap.get
  exact if_neg h

theorem SMap.get_insert (d : α) (m : SMap α) (k k' : Nat) (v : α) :
    SMap.get d (SMap.insert m k v) k' = if k' = k then v else SMap.get d m k' := by
  induction m with
  | nil =>
    by_cases h : k' = k
    · rw [if_pos h, h]; exact SMap.get_head ..
    · rw [if_neg h]; exact SMap.get_tail _ _ _ _ _ (Ne.symm h)
  | cons e m ih =>
    obtain ⟨a, x⟩ := e
    unfold SMap.insert
    by_cases h1 : k < a
    · rw [if_pos h1]
      by_cases h : k' = k
      · rw [if_pos h, h]; exact SMap.get_head ..
      · rw [if_neg h]; exact SMap.get_tail _ _ _ _ _ (Ne.symm h)
    · rw [if_neg h1]
      by_cases h2 : k = a
      · rw [if_pos h2]
        by_cases h : k' = k
        · rw [if_pos h, h]; exact SMap.get_head ..
        · rw [if_neg h, SMap.get_tail _ _ _ _ _ (Ne.symm h), SMap.get_tail _ _ _ _ _ (by omega)]
      · rw [if_neg h2]
        by_cases h3 : a = k'
        · subst h3
          rw [if_neg (by omega), SMap.get_head, SMap.get_head]
        · rw [SMap.get_tail _ _ _ _ _ h3, SMap.get_tail _ _ _ _ _ h3, ih]

theorem SMap.erase_head (m : SMap α) (a : Nat) (x : α) : SMap.erase ((a, x) :: m) a = SMap.erase m a := by
  simp [SMap.erase]

theorem SMap.erase_tail (m : SMap α) (a k : Nat) (x : α) (h : a ≠ k) :
    SMap.erase ((a, x) :: m) k = (a, x) :: SMap.erase m k := by
  simp [SMap.erase, h]

theorem SMap.get_erase (d : α) (m : SMap α) (k k' : Nat) :
    SMap.get d (SMap.erase m k) k' = if k' = k then d else SMap.get d m k' := by
  induction m with
  | nil => split <;> rfl
  | cons e m ih =>
    obtain ⟨a, x⟩ := e
    by_cases h : a = k
    · subst h
      rw [SMap.erase_head, ih]
      by_cases h : k' = a
      · rw [if_pos h, if_pos h]
      · rw [if_neg h, if_neg h, SMap.get_tail _ _ _ _ _ (Ne.symm h)]
    · rw [SMap.erase_tail _ _ _ _ h]
      by_cases h3 : a = k'
      · subst h3
        rw [if_neg h, SMap.get_head, SMap.get_head]
      · rw [SMap.get_tail _ _ _ _ _ h3, SMap.get_tail _ _ _ _ _ h3, ih]

/-- What is read after a write. -/
theorem SMap.get_put [DecidableEq α] (d : α) (m : SMap α) (k k' : Nat) (v : α) :
    SMap.get d (SMap.put d m k v) k' = if k' = k then v else SMap.get d m k' := by
  unfold SMap.put
  split
  · subst_vars; exact SMap.get_erase ..
  · exact SMap.get_insert ..

theorem SMap.wf_cons [DecidableEq α] (d : α) (a : Nat) (x : α) (m : SMap α) :
    SMap.wf d ((a, x) :: m) = true ↔ x ≠ d ∧ (∀ e ∈ m, a < e.1) ∧ SMap.wf d m = true := by
  simp [SMap.wf, and_assoc]

theorem SMap.wf_filter [DecidableEq α] (d : α) (m : SMap α) (p : Nat × α → Bool) (h : SMap.wf d m = true) :
    SMap.wf d (m.filter p) = true := by
  induction m with
  | nil => rfl
  | cons e m ih =>
    obtain ⟨a, x⟩ := e
    rw [SMap.wf_cons] at h
    rw [List.filter_cons]
    split
    · rw [SMap.wf_cons]
      exact ⟨h.1, fun e he => h.2.1 e (List.mem_filter.1 he).1, ih h.2.2⟩
    · exact ih h.2.2

theorem SMap.mem_insert (m : SMap α) (k : Nat) (v : α) (e : Nat × α) (h : e ∈ SMap.insert m k v) :
    e = (k, v) ∨ e ∈ m := by
  induction m with
  | nil => simpa [SMap.insert] using h
  | cons f m ih =>
    obtain ⟨a, x⟩ := f
    simp only [SMap.insert] at h
    split at h
    · simpa using h
    · split at h
      · rcases List.mem_cons.1 h with h | h
        · exact Or.inl h
        · exact Or.inr (List.mem_cons_of_mem _ h)
      · rcases List.mem_cons.1 h with h | h
        · exact Or.inr (h ▸ List.mem_cons_self)
        · exact (ih h).imp_right (List.mem_cons_of_mem _)

theorem SMap.wf_insert [DecidableEq α] (d : α) (m : SMap α) (k : Nat) (v : α) (hv : v ≠ d)
    (h : SMap.wf d m = true) : SMap.wf d (SMap.insert m k v) = true := by
  induction m with
  | nil => simp [SMap.insert, SMap.wf, hv]
  | cons e m ih =>
    obtain ⟨a, x⟩ := e
    have h' := (SMap.wf_cons d a x m).1 h
    simp only [SMap.insert]
    split
    · rw [SMap.wf_cons]
      refine ⟨hv, ?_, h⟩
      intro e he
      rcases List.mem_cons.1 he with rfl | he
      · assumption
      · exact Nat.lt_trans ‹k < a› (h'.2.1 e he)
    · split
      · subst_vars; rw [SMap.wf_cons]; exact ⟨hv, h'.2⟩
      · rw [SMap.wf_cons]
        refine ⟨h'.1, ?_, ih h'.2.2⟩
        intro e he
        rcases SMap.mem_insert m k v e he with rfl | he
        · show a < k; omega
        · exact h'.2.1 e he

/-- A write keeps the canonical form. -/
theorem SMap.wf_put [DecidableEq α] (d : α) (m : SMap α) (k : Nat) (v : α) (h : SMap.wf d m = true) :
    SMap.wf d (SMap.put d m k v) = true := by
  unfold SMap.put
  split
  · exact SMap.wf_filter d m _ h
  · exact SMap.wf_insert d m k v ‹_› h

theorem SMap.get_below [DecidableEq α] (d : α) (m : SMap α) (k : Nat) (h : ∀ e ∈ m, k < e.1) :
    SMap.get d m k = d := by
  induction m with
  | nil => rfl
  | cons e m ih =>
    obtain ⟨a, x⟩ := e
    have : k < a := h (a, x) List.mem_cons_self
    simp only [SMap.get]
    rw [if_neg (by omega)]
    exact ih fun e he => h e (List.mem_cons_of_mem _ he)

theorem SMap.erase_below (m : SMap α) (k : Nat) (h : ∀ e ∈ m, k < e.1) : SMap.erase m k = m := by
  unfold SMap.erase
  rw [List.filter_eq_self]
  intro e he
  have := h e he
  simp only [bne_iff_ne]
  omega

theorem SMap.countP_insert [DecidableEq α] (d : α) (m : SMap α) (k : Nat) (v : α) (c : α → Bool)
    (hc : c d = false) (h : SMap.wf d m = true) :
    (SMap.insert m k v).countP (fun e => c e.2) + (c (SMap.get d m k)).toNat
      = m.countP (fun e => c e.2) + (c v).toNat := by
  induction m with
  | nil =>
    have : SMap.get d ([] : SMap α) k = d := rfl
    rw [this, hc]
    show List.countP _ [(k, v)] + _ = _
    rw [List.countP_cons]
    cases hv : c v <;> simp
  | cons e m ih =>
    obtain ⟨a, x⟩ := e
    have h' := (SMap.wf_cons d a x m).1 h
    unfold SMap.insert
    by_cases h1 : k < a
    · rw [if_pos h1]
      have g : SMap.get d ((a, x) :: m) k = d := SMap.get_below d _ k fun e he => by
        rcases List.mem_cons.1 he with rfl | he
        · exact h1
        · exact Nat.lt_trans h1 (h'.2.1 e he)
      rw [g, hc, List.countP_cons]
      cases hv : c v <;> simp
    · rw [if_neg h1]
      by_cases h2 : k = a
      · subst h2
        rw [if_pos rfl, SMap.get_head, List.countP_cons, List.countP_cons]
        cases hv : c v <;> cases hx : c x <;> simp
      · rw [if_neg h2, SMap.get_tail _ _ _ _ _ (Ne.symm h2), List.countP_cons, List.countP_cons]
        have := ih h'.2.2
        omega

theorem SMap.countP_erase [DecidableEq α] (d : α) (m : SMap α) (k : Nat) (c : α → Bool) (hc : c d = false)
    (h : SMap.wf d m = true) :
    (SMap.erase m k).countP (fun e => c e.2) + (c (SMap.get d m k)).toNat = m.countP (fun e => c e.2) := by
  induction m with
  | nil => simp [SMap.erase, SMap.get, hc]
  | cons e m ih =>
    obtain ⟨a, x⟩ := e
    have h' := (SMap.wf_cons d a x m).1 h
    by_cases hk : a = k
    · subst hk
      rw [SMap.erase_head, SMap.erase_below m a h'.2.1, SMap.get_head, List.countP_cons]
      cases hx : c x <;> simp
    · rw [SMap.erase_tail _ _ _ _ hk, SMap.get_tail _ _ _ _ _ hk, List.countP_cons, List.countP_cons]
      have := ih h'.2.2
      omega

/-- A count over the entries after a write, where the value of an unlisted number is not counted. -/
theorem SMap.countP_put [DecidableEq α] (d : α) (m : SMap α) (k : Nat) (v : α) (c : α → Bool) (hc : c d = false)
    (h : SMap.wf d m = true) :
    (SMap.put d m k v).countP (fun e => c e.2) + (c (SMap.get d m k)).toNat
      = m.countP (fun e => c e.2) + (c v).toNat := by
  unfold SMap.put
  by_cases hv : v = d
  · rw [if_pos hv, hv, hc]
    exact SMap.countP_erase d m k c hc h
  · rw [if_neg hv]
    exact SMap.countP_insert d m k v c hc h

/-- Every entry after a write is the one written or was there before. -/
theorem SMap.mem_put [DecidableEq α] (d : α) (m : SMap α) (k : Nat) (v : α) (e : Nat × α)
    (h : e ∈ SMap.put d m k v) : (e = (k, v) ∧ v ≠ d) ∨ e ∈ m := by
  unfold SMap.put at h
  split at h
  · exact Or.inr (List.mem_filter.1 h).1
  · exact (SMap.mem_insert m k v e h).imp_left fun h => ⟨h, ‹_›⟩

/-- A number that is not unlisted has an entry. -/
theorem SMap.mem_of_get_ne (d : α) (m : SMap α) (k : Nat) (h : SMap.get d m k ≠ d) : (k, SMap.get d m k) ∈ m := by
  induction m with
  | nil => exact absurd rfl h
  | cons e m ih =>
    obtain ⟨a, x⟩ := e
    by_cases hk : a = k
    · subst hk; rw [SMap.get_head]; exact List.mem_cons_self
    · rw [SMap.get_tail _ _ _ _ _ hk] at h ⊢; exact List.mem_cons_of_mem _ (ih h)

/-! ### Memory -/

/-- The byte read after a write. -/
theorem Memory.read_write (m : Memory) (a a' : Nat) (b : Byte) :
    (m.write a b).read a' = if a' = a then b else m.read a' := SMap.get_put ..

/-- A write keeps the canonical form of memory. -/
theorem Memory.wf_write (m : Memory) (a : Nat) (b : Byte) (h : m.wf = true) : (m.write a b).wf = true :=
  SMap.wf_put _ _ _ _ h

/-- A write of several bytes keeps the canonical form of memory. -/
theorem Memory.wf_writeFrom (m : Memory) (a : Nat) (bs : List Byte) (h : m.wf = true) :
    (m.writeFrom a bs).wf = true := by
  induction bs generalizing m a with
  | nil => exact h
  | cons b bs ih => exact ih _ _ (Memory.wf_write _ _ _ h)

/-- A write of several bytes changes no byte outside them. -/
theorem Memory.read_writeFrom (m : Memory) (a : Nat) (bs : List Byte) (x : Nat) (h : x < a ∨ a + bs.length ≤ x) :
    (m.writeFrom a bs).read x = m.read x := by
  induction bs generalizing m a with
  | nil => rfl
  | cons b bs ih =>
    have hl : (b :: bs).length = bs.length + 1 := rfl
    rw [hl] at h
    show ((m.write a b).writeFrom (a + 1) bs).read x = m.read x
    rw [ih _ _ (by omega), Memory.read_write, if_neg (by omega)]

end Sys2Proof.Machine
end

