-- ==== Sys2Proof/Laws/State.lean ====
section
/-! SUPPORT. What each named update of the part leaves of the other fields. -/

namespace Sys2Proof.Machine

/-! ### A tunnel record set or changed -/

@[simp] theorem Device.setTunnel_clock (d : Device) (t : Nat) (r : Tunnel) :
    (d.setTunnel t r).clock = d.clock := rfl

@[simp] theorem Device.setTunnel_store (d : Device) (t : Nat) (r : Tunnel) :
    (d.setTunnel t r).store = d.store := rfl

@[simp] theorem Device.setTunnel_profiles (d : Device) (t : Nat) (r : Tunnel) :
    (d.setTunnel t r).profiles = d.profiles := rfl

@[simp] theorem Device.setTunnel_keys (d : Device) (t : Nat) (r : Tunnel) :
    (d.setTunnel t r).keys = d.keys := rfl

@[simp] theorem Device.setTunnel_engine (d : Device) (t : Nat) (r : Tunnel) :
    (d.setTunnel t r).engine = d.engine := rfl

@[simp] theorem Device.setTunnel_faults (d : Device) (t : Nat) (r : Tunnel) :
    (d.setTunnel t r).faults = d.faults := rfl

@[simp] theorem Device.setTunnel_deviceReport (d : Device) (t : Nat) (r : Tunnel) :
    (d.setTunnel t r).deviceReport = d.deviceReport := rfl

@[simp] theorem Device.setTunnel_proofs (d : Device) (t : Nat) (r : Tunnel) :
    (d.setTunnel t r).proofs = d.proofs := rfl

@[simp] theorem Device.setTunnel_bank (d : Device) (t : Nat) (r : Tunnel) :
    (d.setTunnel t r).bank = d.bank := rfl

@[simp] theorem Device.setTunnel_traffic (d : Device) (t : Nat) (r : Tunnel) :
    (d.setTunnel t r).traffic = d.traffic := rfl

@[simp] theorem Device.setTunnel_key (d : Device) (t : Nat) (r : Tunnel) :
    (d.setTunnel t r).key = d.key := rfl

@[simp] theorem Device.setTunnel_operations (d : Device) (t : Nat) (r : Tunnel) :
    (d.setTunnel t r).operations = d.operations := rfl

@[simp] theorem Device.setTunnel_image (d : Device) (t : Nat) (r : Tunnel) :
    (d.setTunnel t r).image = d.image := rfl

@[simp] theorem Device.setTunnel_loading (d : Device) (t : Nat) (r : Tunnel) :
    (d.setTunnel t r).loading = d.loading := rfl

@[simp] theorem Device.setTunnel_saving (d : Device) (t : Nat) (r : Tunnel) :
    (d.setTunnel t r).saving = d.saving := rfl

@[simp] theorem Device.setTunnel_buildDue (d : Device) (t : Nat) (r : Tunnel) :
    (d.setTunnel t r).buildDue = d.buildDue := rfl

@[simp] theorem Device.setTunnel_draws (d : Device) (t : Nat) (r : Tunnel) :
    (d.setTunnel t r).draws = d.draws := rfl

@[simp] theorem Device.modTunnel_clock (d : Device) (t : Nat) (f : Tunnel → Tunnel) :
    (d.modTunnel t f).clock = d.clock := rfl

@[simp] theorem Device.modTunnel_store (d : Device) (t : Nat) (f : Tunnel → Tunnel) :
    (d.modTunnel t f).store = d.store := rfl

@[simp] theorem Device.modTunnel_profiles (d : Device) (t : Nat) (f : Tunnel → Tunnel) :
    (d.modTunnel t f).profiles = d.profiles := rfl

@[simp] theorem Device.modTunnel_keys (d : Device) (t : Nat) (f : Tunnel → Tunnel) :
    (d.modTunnel t f).keys = d.keys := rfl

@[simp] theorem Device.modTunnel_engine (d : Device) (t : Nat) (f : Tunnel → Tunnel) :
    (d.modTunnel t f).engine = d.engine := rfl

@[simp] theorem Device.modTunnel_faults (d : Device) (t : Nat) (f : Tunnel → Tunnel) :
    (d.modTunnel t f).faults = d.faults := rfl

@[simp] theorem Device.modTunnel_deviceReport (d : Device) (t : Nat) (f : Tunnel → Tunnel) :
    (d.modTunnel t f).deviceReport = d.deviceReport := rfl

@[simp] theorem Device.modTunnel_proofs (d : Device) (t : Nat) (f : Tunnel → Tunnel) :
    (d.modTunnel t f).proofs = d.proofs := rfl

@[simp] theorem Device.modTunnel_bank (d : Device) (t : Nat) (f : Tunnel → Tunnel) :
    (d.modTunnel t f).bank = d.bank := rfl

@[simp] theorem Device.modTunnel_traffic (d : Device) (t : Nat) (f : Tunnel → Tunnel) :
    (d.modTunnel t f).traffic = d.traffic := rfl

@[simp] theorem Device.modTunnel_key (d : Device) (t : Nat) (f : Tunnel → Tunnel) :
    (d.modTunnel t f).key = d.key := rfl

@[simp] theorem Device.modTunnel_operations (d : Device) (t : Nat) (f : Tunnel → Tunnel) :
    (d.modTunnel t f).operations = d.operations := rfl

@[simp] theorem Device.modTunnel_image (d : Device) (t : Nat) (f : Tunnel → Tunnel) :
    (d.modTunnel t f).image = d.image := rfl

@[simp] theorem Device.modTunnel_loading (d : Device) (t : Nat) (f : Tunnel → Tunnel) :
    (d.modTunnel t f).loading = d.loading := rfl

@[simp] theorem Device.modTunnel_saving (d : Device) (t : Nat) (f : Tunnel → Tunnel) :
    (d.modTunnel t f).saving = d.saving := rfl

@[simp] theorem Device.modTunnel_buildDue (d : Device) (t : Nat) (f : Tunnel → Tunnel) :
    (d.modTunnel t f).buildDue = d.buildDue := rfl

@[simp] theorem Device.modTunnel_draws (d : Device) (t : Nat) (f : Tunnel → Tunnel) :
    (d.modTunnel t f).draws = d.draws := rfl

/-! ### A port set or changed -/

@[simp] theorem Device.setPort_clock (d : Device) (p : Port) (x : PortState) :
    (d.setPort p x).clock = d.clock := by cases p <;> rfl

@[simp] theorem Device.setPort_store (d : Device) (p : Port) (x : PortState) :
    (d.setPort p x).store = d.store := by cases p <;> rfl

@[simp] theorem Device.setPort_tunnels (d : Device) (p : Port) (x : PortState) :
    (d.setPort p x).tunnels = d.tunnels := by cases p <;> rfl

@[simp] theorem Device.setPort_profiles (d : Device) (p : Port) (x : PortState) :
    (d.setPort p x).profiles = d.profiles := by cases p <;> rfl

@[simp] theorem Device.setPort_keys (d : Device) (p : Port) (x : PortState) :
    (d.setPort p x).keys = d.keys := by cases p <;> rfl

@[simp] theorem Device.setPort_engine (d : Device) (p : Port) (x : PortState) :
    (d.setPort p x).engine = d.engine := by cases p <;> rfl

@[simp] theorem Device.setPort_faults (d : Device) (p : Port) (x : PortState) :
    (d.setPort p x).faults = d.faults := by cases p <;> rfl

@[simp] theorem Device.setPort_deviceReport (d : Device) (p : Port) (x : PortState) :
    (d.setPort p x).deviceReport = d.deviceReport := by cases p <;> rfl

@[simp] theorem Device.setPort_proofs (d : Device) (p : Port) (x : PortState) :
    (d.setPort p x).proofs = d.proofs := by cases p <;> rfl

@[simp] theorem Device.setPort_bank (d : Device) (p : Port) (x : PortState) :
    (d.setPort p x).bank = d.bank := by cases p <;> rfl

@[simp] theorem Device.setPort_image (d : Device) (p : Port) (x : PortState) :
    (d.setPort p x).image = d.image := by cases p <;> rfl

@[simp] theorem Device.setPort_loading (d : Device) (p : Port) (x : PortState) :
    (d.setPort p x).loading = d.loading := by cases p <;> rfl

@[simp] theorem Device.setPort_saving (d : Device) (p : Port) (x : PortState) :
    (d.setPort p x).saving = d.saving := by cases p <;> rfl

@[simp] theorem Device.setPort_buildDue (d : Device) (p : Port) (x : PortState) :
    (d.setPort p x).buildDue = d.buildDue := by cases p <;> rfl

@[simp] theorem Device.setPort_draws (d : Device) (p : Port) (x : PortState) :
    (d.setPort p x).draws = d.draws := by cases p <;> rfl

@[simp] theorem Device.modPort_clock (d : Device) (p : Port) (f : PortState → PortState) :
    (d.modPort p f).clock = d.clock := by cases p <;> rfl

@[simp] theorem Device.modPort_store (d : Device) (p : Port) (f : PortState → PortState) :
    (d.modPort p f).store = d.store := by cases p <;> rfl

@[simp] theorem Device.modPort_tunnels (d : Device) (p : Port) (f : PortState → PortState) :
    (d.modPort p f).tunnels = d.tunnels := by cases p <;> rfl

@[simp] theorem Device.modPort_profiles (d : Device) (p : Port) (f : PortState → PortState) :
    (d.modPort p f).profiles = d.profiles := by cases p <;> rfl

@[simp] theorem Device.modPort_keys (d : Device) (p : Port) (f : PortState → PortState) :
    (d.modPort p f).keys = d.keys := by cases p <;> rfl

@[simp] theorem Device.modPort_engine (d : Device) (p : Port) (f : PortState → PortState) :
    (d.modPort p f).engine = d.engine := by cases p <;> rfl

@[simp] theorem Device.modPort_faults (d : Device) (p : Port) (f : PortState → PortState) :
    (d.modPort p f).faults = d.faults := by cases p <;> rfl

@[simp] theorem Device.modPort_deviceReport (d : Device) (p : Port) (f : PortState → PortState) :
    (d.modPort p f).deviceReport = d.deviceReport := by cases p <;> rfl

@[simp] theorem Device.modPort_proofs (d : Device) (p : Port) (f : PortState → PortState) :
    (d.modPort p f).proofs = d.proofs := by cases p <;> rfl

@[simp] theorem Device.modPort_bank (d : Device) (p : Port) (f : PortState → PortState) :
    (d.modPort p f).bank = d.bank := by cases p <;> rfl

@[simp] theorem Device.modPort_image (d : Device) (p : Port) (f : PortState → PortState) :
    (d.modPort p f).image = d.image := by cases p <;> rfl

@[simp] theorem Device.modPort_loading (d : Device) (p : Port) (f : PortState → PortState) :
    (d.modPort p f).loading = d.loading := by cases p <;> rfl

@[simp] theorem Device.modPort_saving (d : Device) (p : Port) (f : PortState → PortState) :
    (d.modPort p f).saving = d.saving := by cases p <;> rfl

@[simp] theorem Device.modPort_buildDue (d : Device) (p : Port) (f : PortState → PortState) :
    (d.modPort p f).buildDue = d.buildDue := by cases p <;> rfl

@[simp] theorem Device.modPort_draws (d : Device) (p : Port) (f : PortState → PortState) :
    (d.modPort p f).draws = d.draws := by cases p <;> rfl

/-! ### An event given to the bank -/

@[simp] theorem Device.give_clock (d : Device) (e : EventSource) (c : Option Nat) :
    (d.give e c).clock = d.clock := rfl

@[simp] theorem Device.give_store (d : Device) (e : EventSource) (c : Option Nat) :
    (d.give e c).store = d.store := rfl

@[simp] theorem Device.give_tunnels (d : Device) (e : EventSource) (c : Option Nat) :
    (d.give e c).tunnels = d.tunnels := rfl

@[simp] theorem Device.give_profiles (d : Device) (e : EventSource) (c : Option Nat) :
    (d.give e c).profiles = d.profiles := rfl

@[simp] theorem Device.give_keys (d : Device) (e : EventSource) (c : Option Nat) :
    (d.give e c).keys = d.keys := rfl

@[simp] theorem Device.give_engine (d : Device) (e : EventSource) (c : Option Nat) :
    (d.give e c).engine = d.engine := rfl

@[simp] theorem Device.give_faults (d : Device) (e : EventSource) (c : Option Nat) :
    (d.give e c).faults = d.faults := rfl

@[simp] theorem Device.give_deviceReport (d : Device) (e : EventSource) (c : Option Nat) :
    (d.give e c).deviceReport = d.deviceReport := rfl

@[simp] theorem Device.give_proofs (d : Device) (e : EventSource) (c : Option Nat) :
    (d.give e c).proofs = d.proofs := rfl

@[simp] theorem Device.give_traffic (d : Device) (e : EventSource) (c : Option Nat) :
    (d.give e c).traffic = d.traffic := rfl

@[simp] theorem Device.give_key (d : Device) (e : EventSource) (c : Option Nat) :
    (d.give e c).key = d.key := rfl

@[simp] theorem Device.give_operations (d : Device) (e : EventSource) (c : Option Nat) :
    (d.give e c).operations = d.operations := rfl

@[simp] theorem Device.give_image (d : Device) (e : EventSource) (c : Option Nat) :
    (d.give e c).image = d.image := rfl

@[simp] theorem Device.give_loading (d : Device) (e : EventSource) (c : Option Nat) :
    (d.give e c).loading = d.loading := rfl

@[simp] theorem Device.give_saving (d : Device) (e : EventSource) (c : Option Nat) :
    (d.give e c).saving = d.saving := rfl

@[simp] theorem Device.give_buildDue (d : Device) (e : EventSource) (c : Option Nat) :
    (d.give e c).buildDue = d.buildDue := rfl

@[simp] theorem Device.give_draws (d : Device) (e : EventSource) (c : Option Nat) :
    (d.give e c).draws = d.draws := rfl

/-! ### A key store entry set -/

@[simp] theorem Device.setEntry_clock (d : Device) (e : Nat) (v : KeyEntry) :
    (d.setEntry e v).clock = d.clock := rfl

@[simp] theorem Device.setEntry_store (d : Device) (e : Nat) (v : KeyEntry) :
    (d.setEntry e v).store = d.store := rfl

@[simp] theorem Device.setEntry_tunnels (d : Device) (e : Nat) (v : KeyEntry) :
    (d.setEntry e v).tunnels = d.tunnels := rfl

@[simp] theorem Device.setEntry_profiles (d : Device) (e : Nat) (v : KeyEntry) :
    (d.setEntry e v).profiles = d.profiles := rfl

@[simp] theorem Device.setEntry_engine (d : Device) (e : Nat) (v : KeyEntry) :
    (d.setEntry e v).engine = d.engine := rfl

@[simp] theorem Device.setEntry_faults (d : Device) (e : Nat) (v : KeyEntry) :
    (d.setEntry e v).faults = d.faults := rfl

@[simp] theorem Device.setEntry_deviceReport (d : Device) (e : Nat) (v : KeyEntry) :
    (d.setEntry e v).deviceReport = d.deviceReport := rfl

@[simp] theorem Device.setEntry_proofs (d : Device) (e : Nat) (v : KeyEntry) :
    (d.setEntry e v).proofs = d.proofs := rfl

@[simp] theorem Device.setEntry_bank (d : Device) (e : Nat) (v : KeyEntry) :
    (d.setEntry e v).bank = d.bank := rfl

@[simp] theorem Device.setEntry_traffic (d : Device) (e : Nat) (v : KeyEntry) :
    (d.setEntry e v).traffic = d.traffic := rfl

@[simp] theorem Device.setEntry_key (d : Device) (e : Nat) (v : KeyEntry) :
    (d.setEntry e v).key = d.key := rfl

@[simp] theorem Device.setEntry_operations (d : Device) (e : Nat) (v : KeyEntry) :
    (d.setEntry e v).operations = d.operations := rfl

@[simp] theorem Device.setEntry_image (d : Device) (e : Nat) (v : KeyEntry) :
    (d.setEntry e v).image = d.image := rfl

@[simp] theorem Device.setEntry_loading (d : Device) (e : Nat) (v : KeyEntry) :
    (d.setEntry e v).loading = d.loading := rfl

@[simp] theorem Device.setEntry_saving (d : Device) (e : Nat) (v : KeyEntry) :
    (d.setEntry e v).saving = d.saving := rfl

@[simp] theorem Device.setEntry_buildDue (d : Device) (e : Nat) (v : KeyEntry) :
    (d.setEntry e v).buildDue = d.buildDue := rfl

@[simp] theorem Device.setEntry_draws (d : Device) (e : Nat) (v : KeyEntry) :
    (d.setEntry e v).draws = d.draws := rfl

/-! ### The running proof set -/

@[simp] theorem Device.setProof_clock (d : Device) (r : Option ProofRecord) :
    (d.setProof r).clock = d.clock := rfl

@[simp] theorem Device.setProof_store (d : Device) (r : Option ProofRecord) :
    (d.setProof r).store = d.store := rfl

@[simp] theorem Device.setProof_tunnels (d : Device) (r : Option ProofRecord) :
    (d.setProof r).tunnels = d.tunnels := rfl

@[simp] theorem Device.setProof_profiles (d : Device) (r : Option ProofRecord) :
    (d.setProof r).profiles = d.profiles := rfl

@[simp] theorem Device.setProof_keys (d : Device) (r : Option ProofRecord) :
    (d.setProof r).keys = d.keys := rfl

@[simp] theorem Device.setProof_engine (d : Device) (r : Option ProofRecord) :
    (d.setProof r).engine = d.engine := rfl

@[simp] theorem Device.setProof_faults (d : Device) (r : Option ProofRecord) :
    (d.setProof r).faults = d.faults := rfl

@[simp] theorem Device.setProof_deviceReport (d : Device) (r : Option ProofRecord) :
    (d.setProof r).deviceReport = d.deviceReport := rfl

@[simp] theorem Device.setProof_bank (d : Device) (r : Option ProofRecord) :
    (d.setProof r).bank = d.bank := rfl

@[simp] theorem Device.setProof_traffic (d : Device) (r : Option ProofRecord) :
    (d.setProof r).traffic = d.traffic := rfl

@[simp] theorem Device.setProof_key (d : Device) (r : Option ProofRecord) :
    (d.setProof r).key = d.key := rfl

@[simp] theorem Device.setProof_operations (d : Device) (r : Option ProofRecord) :
    (d.setProof r).operations = d.operations := rfl

@[simp] theorem Device.setProof_image (d : Device) (r : Option ProofRecord) :
    (d.setProof r).image = d.image := rfl

@[simp] theorem Device.setProof_loading (d : Device) (r : Option ProofRecord) :
    (d.setProof r).loading = d.loading := rfl

@[simp] theorem Device.setProof_saving (d : Device) (r : Option ProofRecord) :
    (d.setProof r).saving = d.saving := rfl

@[simp] theorem Device.setProof_buildDue (d : Device) (r : Option ProofRecord) :
    (d.setProof r).buildDue = d.buildDue := rfl

@[simp] theorem Device.setProof_draws (d : Device) (r : Option ProofRecord) :
    (d.setProof r).draws = d.draws := rfl

/-! ### Cells passed -/

@[simp] theorem Device.passCells_clock (d : Device) (cells : List Nat) (s : CellState) :
    (d.passCells cells s).clock = d.clock := rfl

@[simp] theorem Device.passCells_tunnels (d : Device) (cells : List Nat) (s : CellState) :
    (d.passCells cells s).tunnels = d.tunnels := rfl

@[simp] theorem Device.passCells_profiles (d : Device) (cells : List Nat) (s : CellState) :
    (d.passCells cells s).profiles = d.profiles := rfl

@[simp] theorem Device.passCells_keys (d : Device) (cells : List Nat) (s : CellState) :
    (d.passCells cells s).keys = d.keys := rfl

@[simp] theorem Device.passCells_engine (d : Device) (cells : List Nat) (s : CellState) :
    (d.passCells cells s).engine = d.engine := rfl

@[simp] theorem Device.passCells_faults (d : Device) (cells : List Nat) (s : CellState) :
    (d.passCells cells s).faults = d.faults := rfl

@[simp] theorem Device.passCells_deviceReport (d : Device) (cells : List Nat) (s : CellState) :
    (d.passCells cells s).deviceReport = d.deviceReport := rfl

@[simp] theorem Device.passCells_proofs (d : Device) (cells : List Nat) (s : CellState) :
    (d.passCells cells s).proofs = d.proofs := rfl

@[simp] theorem Device.passCells_bank (d : Device) (cells : List Nat) (s : CellState) :
    (d.passCells cells s).bank = d.bank := rfl

@[simp] theorem Device.passCells_traffic (d : Device) (cells : List Nat) (s : CellState) :
    (d.passCells cells s).traffic = d.traffic := rfl

@[simp] theorem Device.passCells_key (d : Device) (cells : List Nat) (s : CellState) :
    (d.passCells cells s).key = d.key := rfl

@[simp] theorem Device.passCells_operations (d : Device) (cells : List Nat) (s : CellState) :
    (d.passCells cells s).operations = d.operations := rfl

@[simp] theorem Device.passCells_image (d : Device) (cells : List Nat) (s : CellState) :
    (d.passCells cells s).image = d.image := rfl

@[simp] theorem Device.passCells_loading (d : Device) (cells : List Nat) (s : CellState) :
    (d.passCells cells s).loading = d.loading := rfl

@[simp] theorem Device.passCells_saving (d : Device) (cells : List Nat) (s : CellState) :
    (d.passCells cells s).saving = d.saving := rfl

@[simp] theorem Device.passCells_buildDue (d : Device) (cells : List Nat) (s : CellState) :
    (d.passCells cells s).buildDue = d.buildDue := rfl

@[simp] theorem Device.passCells_draws (d : Device) (cells : List Nat) (s : CellState) :
    (d.passCells cells s).draws = d.draws := rfl

/-! ### Cells freed -/

@[simp] theorem Device.freeCells_clock (d : Device) (cells : List Nat) :
    (d.freeCells cells).clock = d.clock := rfl

@[simp] theorem Device.freeCells_tunnels (d : Device) (cells : List Nat) :
    (d.freeCells cells).tunnels = d.tunnels := rfl

@[simp] theorem Device.freeCells_profiles (d : Device) (cells : List Nat) :
    (d.freeCells cells).profiles = d.profiles := rfl

@[simp] theorem Device.freeCells_keys (d : Device) (cells : List Nat) :
    (d.freeCells cells).keys = d.keys := rfl

@[simp] theorem Device.freeCells_engine (d : Device) (cells : List Nat) :
    (d.freeCells cells).engine = d.engine := rfl

@[simp] theorem Device.freeCells_faults (d : Device) (cells : List Nat) :
    (d.freeCells cells).faults = d.faults := rfl

@[simp] theorem Device.freeCells_deviceReport (d : Device) (cells : List Nat) :
    (d.freeCells cells).deviceReport = d.deviceReport := rfl

@[simp] theorem Device.freeCells_proofs (d : Device) (cells : List Nat) :
    (d.freeCells cells).proofs = d.proofs := rfl

@[simp] theorem Device.freeCells_bank (d : Device) (cells : List Nat) :
    (d.freeCells cells).bank = d.bank := rfl

@[simp] theorem Device.freeCells_traffic (d : Device) (cells : List Nat) :
    (d.freeCells cells).traffic = d.traffic := rfl

@[simp] theorem Device.freeCells_key (d : Device) (cells : List Nat) :
    (d.freeCells cells).key = d.key := rfl

@[simp] theorem Device.freeCells_operations (d : Device) (cells : List Nat) :
    (d.freeCells cells).operations = d.operations := rfl

@[simp] theorem Device.freeCells_image (d : Device) (cells : List Nat) :
    (d.freeCells cells).image = d.image := rfl

@[simp] theorem Device.freeCells_loading (d : Device) (cells : List Nat) :
    (d.freeCells cells).loading = d.loading := rfl

@[simp] theorem Device.freeCells_saving (d : Device) (cells : List Nat) :
    (d.freeCells cells).saving = d.saving := rfl

@[simp] theorem Device.freeCells_draws (d : Device) (cells : List Nat) :
    (d.freeCells cells).draws = d.draws := rfl

/-! ### Reading back -/

@[simp] theorem Device.port_setPort (d : Device) (p q : Port) (x : PortState) :
    (d.setPort p x).port q = if q = p then x else d.port q := by
  cases p <;> cases q <;> rfl

@[simp] theorem Device.port_modPort (d : Device) (p q : Port) (f : PortState → PortState) :
    (d.modPort p f).port q = if q = p then f (d.port q) else d.port q := by
  cases p <;> cases q <;> rfl

end Sys2Proof.Machine
end

