-- ==== Sys2Proof/Laws/Store.lean ====
section
/-! SUPPORT. What each operation of the cell store does to a cell and to a byte, and that each keeps the store in
order. -/

namespace Sys2Proof.Machine

namespace CellStore

/-! ### Reading a cell -/

@[simp] theorem cell_setCell (c : CellStore) (n k : Nat) (x : Cell) :
    (c.setCell n x).cell k = if k = n then x else c.cell k := SMap.get_put ..

@[simp] theorem cell_wipe (c : CellStore) (n k : Nat) : (c.wipe n).cell k = c.cell k := rfl

theorem cell_wipeAll (c : CellStore) (ns : List Nat) (k : Nat) : (c.wipeAll ns).cell k = c.cell k := by
  induction ns generalizing c with
  | nil => rfl
  | cons n ns ih => exact ih _

theorem cells_wipeAll (c : CellStore) (ns : List Nat) : (c.wipeAll ns).cells = c.cells := by
  induction ns generalizing c with
  | nil => rfl
  | cons n ns ih => exact ih _

theorem cells_writeSeq (c : CellStore) (cells : List Nat) (start : Nat) (bs : List Byte) :
    (c.writeSeq cells start bs).cells = c.cells := by
  induction bs generalizing c start with
  | nil => rfl
  | cons b bs ih => exact ih _ _

/-- Laying bytes in cells changes no cell's state or charge. -/
theorem cells_lay (c : CellStore) (cells : List Nat) (bs : List Byte) : (c.lay cells bs).cells = c.cells := by
  unfold CellStore.lay; rw [cells_writeSeq, cells_wipeAll]

/-- A cell after a release: FREE if it was listed, as it was otherwise. -/
theorem cell_release (c : CellStore) (ns : List Nat) (k : Nat) :
    (c.release ns).cell k = if k ∈ ns then Cell.free else c.cell k := by
  induction ns generalizing c with
  | nil => simp [CellStore.release]
  | cons n ns ih =>
    unfold CellStore.release
    rw [ih, cell_wipe, cell_setCell]
    by_cases h1 : k ∈ ns <;> by_cases h2 : k = n <;> simp [h1, h2]

/-- A cell after a grant: in the state and charged to the pool if it was listed, as it was otherwise. -/
theorem cell_take (c : CellStore) (p : Pool) (s : CellState) (ns : List Nat) (k : Nat) :
    (c.take p s ns).cell k = if k ∈ ns then ⟨s, some p⟩ else c.cell k := by
  induction ns generalizing c with
  | nil => simp [CellStore.take]
  | cons n ns ih =>
    unfold CellStore.take
    rw [ih, cell_setCell]
    by_cases h1 : k ∈ ns <;> by_cases h2 : k = n <;> simp [h1, h2]

/-- A cell that a grant of the lowest FREE cells takes is FREE. -/
theorem free_of_mem_lowestFree (c : CellStore) (n k : Nat) (h : k ∈ c.lowestFree n) :
    k < Config.cellCount ∧ (c.cell k).state = .free := by
  have h := List.mem_of_mem_take h
  rw [List.mem_filter, List.mem_range] at h
  exact ⟨h.1, of_decide_eq_true h.2⟩

theorem length_lowestFree (c : CellStore) (n : Nat) : (c.lowestFree n).length ≤ n := List.length_take_le ..

theorem nodup_lowestFree (c : CellStore) (n : Nat) : (c.lowestFree n).Nodup :=
  ((List.nodup_range).filter _).sublist (List.take_sublist ..)

/-! ### Reading a byte -/

theorem read_wipe (c : CellStore) (n a : Nat) :
    (c.wipe n).bytes.read a = if a / 256 = n then 0 else c.bytes.read a := by
  unfold CellStore.wipe Memory.read
  simp only
  induction c.bytes with
  | nil => simp [SMap.get, Memory.unlisted]
  | cons e m ih =>
    obtain ⟨b, v⟩ := e
    rw [List.filter_cons]
    by_cases h : b = a
    · subst h
      by_cases h2 : b / 256 = n
      · simp [h2]; simpa [h2] using ih
      · simp [h2, SMap.get_head]
    · split
      · rw [SMap.get_tail _ _ _ _ _ h, ih, SMap.get_tail _ _ _ _ _ h]
      · rw [ih, SMap.get_tail _ _ _ _ _ h]

theorem read_wipeAll (c : CellStore) (ns : List Nat) (a : Nat) :
    (c.wipeAll ns).bytes.read a = if a / 256 ∈ ns then 0 else c.bytes.read a := by
  induction ns generalizing c with
  | nil => simp [CellStore.wipeAll]
  | cons n ns ih =>
    unfold CellStore.wipeAll
    rw [ih, read_wipe]
    by_cases h1 : a / 256 ∈ ns <;> by_cases h2 : a / 256 = n <;> simp [h1, h2]

/-- A byte after a release: zero if its cell was listed, as it was otherwise. -/
theorem read_release (c : CellStore) (ns : List Nat) (a : Nat) :
    (c.release ns).bytes.read a = if a / 256 ∈ ns then 0 else c.bytes.read a := by
  induction ns generalizing c with
  | nil => simp [CellStore.release]
  | cons n ns ih =>
    unfold CellStore.release
    rw [ih, read_wipe]
    by_cases h1 : a / 256 ∈ ns <;> by_cases h2 : a / 256 = n <;> simp [h1, h2] <;> rfl

/-- A grant changes no byte. -/
theorem bytes_take (c : CellStore) (p : Pool) (s : CellState) (ns : List Nat) : (c.take p s ns).bytes = c.bytes := by
  induction ns generalizing c with
  | nil => rfl
  | cons n ns ih => exact ih _

/-- Passing cells to a state changes no byte. -/
theorem bytes_pass (c : CellStore) (s : CellState) (ns : List Nat) : (c.pass s ns).bytes = c.bytes := by
  induction ns generalizing c with
  | nil => rfl
  | cons n ns ih =>
    have h : (c.passOne n s).bytes = c.bytes := by unfold CellStore.passOne; split <;> rfl
    exact (ih _).trans h

/-- A cell after a pass: in the state if it was listed and not FREE, as it was otherwise. -/
theorem cell_pass (c : CellStore) (s : CellState) (hs : s ≠ .free) (ns : List Nat) (k : Nat) :
    (c.pass s ns).cell k =
      if k ∈ ns ∧ (c.cell k).state ≠ .free then { c.cell k with state := s } else c.cell k := by
  induction ns generalizing c with
  | nil => simp [CellStore.pass]
  | cons n ns ih =>
    unfold CellStore.pass
    rw [ih]
    have h : (c.passOne n s).cell k =
        if k = n ∧ (c.cell k).state ≠ .free then { c.cell k with state := s } else c.cell k := by
      unfold CellStore.passOne
      by_cases h2 : k = n
      · subst h2
        by_cases hf : (c.cell k).state = .free <;> simp [hf]
      · split <;> simp [h2]
    rw [h]
    by_cases h1 : k ∈ ns <;> by_cases h2 : k = n <;> by_cases hf : (c.cell k).state = .free <;> simp [h1, h2, hf] <;>
      (try subst h2) <;> simp_all

/-- Bytes written from a position of the sequence that distinct cells form stand there in order, and no other byte of
the store changes. -/
theorem read_writeSeq (c : CellStore) (cells : List Nat) (hn : cells.Nodup) (bs : List Byte) :
    ∀ start, start + bs.length ≤ cells.length * 256 →
      (∀ j, j < cells.length * 256 →
        (c.writeSeq cells start bs).bytes.read (cellAddress cells j) =
          if start ≤ j ∧ j < start + bs.length then bs.getD (j - start) 0 else c.bytes.read (cellAddress cells j))
        ∧ ∀ a, a / 256 ∉ cells → (c.writeSeq cells start bs).bytes.read a = c.bytes.read a := by
  induction bs generalizing c with
  | nil => exact fun start _ => ⟨fun j _ => by rw [if_neg (by simp)]; rfl, fun a _ => rfl⟩
  | cons b bs ih =>
    intro start hs
    have hs' : start + (bs.length + 1) ≤ cells.length * 256 := hs
    obtain ⟨i1, i2⟩ := ih { c with bytes := c.bytes.write (cellAddress cells start) b } (start + 1) (by omega)
    refine ⟨fun j hj => ?_, fun a ha => ?_⟩
    · show (CellStore.writeSeq _ cells (start + 1) bs).bytes.read _ = _
      rw [i1 j hj]
      by_cases c1 : start + 1 ≤ j ∧ j < start + 1 + bs.length
      · rw [if_pos c1, if_pos (by simp; omega), show j - start = (j - (start + 1)) + 1 by omega]
        simp
      · rw [if_neg c1, Memory.read_write]
        by_cases c2 : j = start
        · subst c2
          rw [if_pos rfl, if_pos (by simp)]
          simp
        · rw [if_neg, if_neg (by simp; omega)]
          unfold cellAddress Config.cellBytes
          intro e
          have hd : cells.getD (j / 256) 0 = cells.getD (start / 256) 0 := by omega
          have a1 : j / 256 < cells.length := by omega
          have a2 : start / 256 < cells.length := by omega
          simp [List.getD, a1, a2] at hd
          have hp := List.pairwise_iff_getElem.1 hn
          rcases Nat.lt_trichotomy (j / 256) (start / 256) with g | g | g
          · exact hp _ _ a1 a2 g hd
          · omega
          · exact hp _ _ a2 a1 g hd.symm
    · show (CellStore.writeSeq _ cells (start + 1) bs).bytes.read _ = _
      rw [i2 a ha, Memory.read_write, if_neg]
      unfold cellAddress Config.cellBytes
      intro e
      apply ha
      have a2 : start / 256 < cells.length := by omega
      have : a / 256 = cells.getD (start / 256) 0 := by omega
      rw [this]
      simp [List.getD, a2]

/-- Laying bytes in cells changes no byte of another cell. -/
theorem read_lay_outside (c : CellStore) (cells : List Nat) (bs : List Byte) (hn : cells.Nodup)
    (hl : bs.length ≤ cells.length * 256) (a : Nat) (ha : a / 256 ∉ cells) :
    (c.lay cells bs).bytes.read a = c.bytes.read a := by
  unfold CellStore.lay
  rw [((c.wipeAll cells).read_writeSeq cells hn bs 0 (by omega)).2 a ha, read_wipeAll, if_neg ha]

/-! ### The store kept in order -/

/-- A cell's charge as a count of one pool. -/
def counts (p : Pool) (x : Cell) : Bool := decide (x.charge = some p)

theorem charged_setCell (c : CellStore) (n : Nat) (x : Cell) (p : Pool) (h : SMap.wf Cell.free c.cells = true) :
    (c.setCell n x).charged p + (counts p (c.cell n)).toNat = c.charged p + (counts p x).toNat :=
  SMap.countP_put Cell.free c.cells n x (counts p) rfl h

theorem Ok.bytes {c : CellStore} (h : c.Ok) (m : Memory) (hm : m.wf = true) : ({ c with bytes := m } : CellStore).Ok :=
  ⟨h.1, hm, h.2.2.1, h.2.2.2⟩

theorem Ok.wipe {c : CellStore} (h : c.Ok) (n : Nat) : (c.wipe n).Ok :=
  h.bytes _ (SMap.wf_filter _ _ _ h.2.1)

theorem Ok.wipeAll {c : CellStore} (h : c.Ok) (ns : List Nat) : (c.wipeAll ns).Ok := by
  induction ns generalizing c with
  | nil => exact h
  | cons n ns ih => exact ih (h.wipe n)

theorem Ok.writeSeq {c : CellStore} (h : c.Ok) (cells : List Nat) (start : Nat) (bs : List Byte) :
    (c.writeSeq cells start bs).Ok := by
  induction bs generalizing c start with
  | nil => exact h
  | cons b bs ih => exact ih (h.bytes _ (Memory.wf_write _ _ _ h.2.1)) _

theorem Ok.lay {c : CellStore} (h : c.Ok) (cells : List Nat) (bs : List Byte) : (c.lay cells bs).Ok :=
  (h.wipeAll cells).writeSeq _ _ _

theorem all_put {m : SMap Cell} {n : Nat} {x : Cell} (h : m.all cellOk = true)
    (hx : x ≠ Cell.free → cellOk (n, x) = true) : (SMap.put Cell.free m n x).all cellOk = true := by
  rw [List.all_eq_true] at h ⊢
  intro e he
  rcases SMap.mem_put _ _ _ _ _ he with ⟨rfl, hv⟩ | he
  · exact hx hv
  · exact h e he

theorem Ok.releaseOne {c : CellStore} (h : c.Ok) (n : Nat) : ((c.setCell n Cell.free).wipe n).Ok := by
  have e1 := charged_setCell c n Cell.free .regular h.1
  have e2 := charged_setCell c n Cell.free .reserved h.1
  have z : ∀ p, (counts p Cell.free).toNat = 0 := fun p => rfl
  rw [z] at e1 e2
  have key : (c.setCell n Cell.free).Ok := by
    refine ⟨SMap.wf_put Cell.free c.cells n Cell.free h.1, h.2.1,
      all_put (n := n) (x := Cell.free) h.2.2.1 fun x => absurd rfl x, ?_, ?_⟩
    · have := h.2.2.2.1; omega
    · have := h.2.2.2.2; omega
  exact key.wipe n

/-- A release keeps the store in order. -/
theorem Ok.release {c : CellStore} (h : c.Ok) (ns : List Nat) : (c.release ns).Ok := by
  induction ns generalizing c with
  | nil => exact h
  | cons n ns ih => exact ih (h.releaseOne n)

/-- A cell that is not FREE is in order. -/
theorem Ok.cellOk_of_not_free {c : CellStore} (h : c.Ok) (n : Nat) (hn : (c.cell n).state ≠ .free) :
    cellOk (n, c.cell n) = true := by
  have : SMap.get Cell.free c.cells n ≠ Cell.free := fun e => hn (by
    show (SMap.get Cell.free c.cells n).state = .free
    rw [e]; rfl)
  exact List.all_eq_true.1 h.2.2.1 _ (SMap.mem_of_get_ne _ _ _ this)

/-- A FREE cell is charged to no pool. -/
theorem Ok.uncharged {c : CellStore} (h : c.Ok) (n : Nat) (hn : (c.cell n).state = .free) : c.cell n = Cell.free := by
  refine Decidable.byContradiction fun hne => ?_
  have := List.all_eq_true.1 h.2.2.1 _ (SMap.mem_of_get_ne _ _ _ hne)
  simp only [cellOk, Bool.and_eq_true, decide_eq_true_eq] at this
  exact this.1.2 hn

theorem Ok.passOne {c : CellStore} (h : c.Ok) (n : Nat) (s : CellState) (hs : s ≠ .free) : (c.passOne n s).Ok := by
  unfold CellStore.passOne
  split
  · exact h
  · rename_i hn
    have hc := h.cellOk_of_not_free n hn
    have e : ∀ p, counts p { c.cell n with state := s } = counts p (c.cell n) := fun p => rfl
    have e1 := charged_setCell c n { c.cell n with state := s } .regular h.1
    have e2 := charged_setCell c n { c.cell n with state := s } .reserved h.1
    rw [e] at e1 e2
    refine ⟨SMap.wf_put _ _ _ _ h.1, h.2.1, all_put h.2.2.1 fun _ => ?_, ?_, ?_⟩
    · simp only [cellOk, Bool.and_eq_true, decide_eq_true_eq] at hc ⊢
      exact ⟨⟨hc.1.1, hs⟩, hc.2⟩
    · have := h.2.2.2.1; omega
    · have := h.2.2.2.2; omega

/-- Passing cells to a state that is not FREE keeps the store in order. -/
theorem Ok.pass {c : CellStore} (h : c.Ok) (s : CellState) (ns : List Nat) (hs : s ≠ .free) : (c.pass s ns).Ok := by
  induction ns generalizing c with
  | nil => exact h
  | cons n ns ih => exact ih (h.passOne n s hs)

theorem charged_take {c : CellStore} (h : c.Ok) (p q : Pool) (s : CellState) (n : Nat) :
    (c.setCell n ⟨s, some p⟩).charged q ≤ c.charged q + (if q = p then 1 else 0) := by
  have e := charged_setCell c n ⟨s, some p⟩ q h.1
  have : (counts q ⟨s, some p⟩).toNat ≤ if q = p then 1 else 0 := by
    unfold counts; cases p <;> cases q <;> simp
  omega

/-- A grant of FREE cells that the pool has room for keeps the store in order. -/
theorem Ok.take {c : CellStore} (h : c.Ok) (p : Pool) (s : CellState) (hs : s ≠ .free) (ns : List Nat)
    (hn : ∀ k ∈ ns, k < Config.cellCount) (hr : c.charged p + ns.length ≤ p.limit) : (c.take p s ns).Ok := by
  induction ns generalizing c with
  | nil => exact h
  | cons n ns ih =>
    have l : (n :: ns).length = ns.length + 1 := rfl
    rw [l] at hr
    have t := charged_take h p p s n
    rw [if_pos rfl] at t
    refine ih ⟨SMap.wf_put _ _ _ _ h.1, h.2.1, all_put h.2.2.1 fun _ => ?_, ?_, ?_⟩
      (fun k hk => hn k (List.mem_cons_of_mem _ hk)) (by omega)
    · simp only [cellOk, Bool.and_eq_true, decide_eq_true_eq, Option.isSome_some, and_true]
      exact ⟨hn n List.mem_cons_self, hs⟩
    · have t := charged_take h p .regular s n
      have := h.2.2.2.1
      cases p
      · have : Pool.limit .regular = Config.regularLimit := rfl
        simp only [if_true] at t; omega
      · simp at t; omega
    · have t := charged_take h p .reserved s n
      have := h.2.2.2.2
      cases p
      · simp at t; omega
      · have : Pool.limit .reserved = Config.reservedLimit := rfl
        simp only [if_true] at t; omega

/-- A grant of the lowest FREE cells that the pool has room for keeps the store in order (R17, R19). -/
theorem Ok.grant {c : CellStore} (h : c.Ok) (p : Pool) (s : CellState) (hs : s ≠ .free) (n : Nat)
    (hr : c.hasRoom p n = true) : (c.take p s (c.lowestFree n)).Ok := by
  have := c.length_lowestFree n
  have hr := of_decide_eq_true hr
  exact h.take p s hs _ (fun k hk => (c.free_of_mem_lowestFree n k hk).1) (by omega)

end CellStore

end Sys2Proof.Machine
end

