-- ==== Sys2Proof/Laws/Reading.lean ====
section
/-! SUPPORT. What small functions of the model come to: a tunnel's record after a change, a latch after it is set, the
tests of named cells, the place of a number in a window, the room for a frame. -/

namespace Sys2Proof.Machine

/-! ### Tunnels -/

/-- A tunnel's record after one tunnel's record is changed. -/
@[simp] theorem Device.tunnel_modTunnel (d : Device) (t u : Nat) (f : Tunnel → Tunnel) :
    (d.modTunnel t f).tunnel u = if u = t then f (d.tunnel t) else d.tunnel u := by
  unfold Device.modTunnel Device.setTunnel Device.tunnel
  exact SMap.get_put ..

@[simp] theorem Device.tunnel_give (d : Device) (e : EventSource) (c : Option Nat) (u : Nat) :
    (d.give e c).tunnel u = d.tunnel u := rfl

@[simp] theorem Device.tunnel_setEntry (d : Device) (e : Nat) (v : KeyEntry) (u : Nat) :
    (d.setEntry e v).tunnel u = d.tunnel u := rfl

@[simp] theorem Device.tunnel_freeCells (d : Device) (cells : List Nat) (u : Nat) :
    (d.freeCells cells).tunnel u = d.tunnel u := rfl

@[simp] theorem Device.tunnel_passCells (d : Device) (cells : List Nat) (s : CellState) (u : Nat) :
    (d.passCells cells s).tunnel u = d.tunnel u := rfl

@[simp] theorem Device.profileAt_modTunnel (d : Device) (t n : Nat) (f : Tunnel → Tunnel) :
    (d.modTunnel t f).profileAt n = d.profileAt n := rfl

@[simp] theorem Device.after_modTunnel (d : Device) (t n : Nat) (f : Tunnel → Tunnel) :
    (d.modTunnel t f).after n = d.after n := rfl

/-- A change of a tunnel's record that leaves its profile leaves the profile the tunnel names. -/
theorem Device.profileOf_modTunnel (d : Device) (t : Nat) (f : Tunnel → Tunnel)
    (h : (f (d.tunnel t)).profile = (d.tunnel t).profile) (u : Nat) : (d.modTunnel t f).profileOf u = d.profileOf u := by
  unfold Device.profileOf
  rw [Device.profileAt_modTunnel, Device.tunnel_modTunnel]
  by_cases e : u = t
  · subst e; rw [if_pos rfl, h]
  · rw [if_neg e]

theorem TunnelState.live_iff (x : TunnelState) :
    x.live = true ↔ x = .provisioned ∨ x = .inService ∨ x = .isolated ∨ x = .failed := by
  cases x <;> simp [TunnelState.live]

theorem OutCauses.isEmpty_iff (c : OutCauses) : c.isEmpty = true ↔ c = ⟨false, false, false⟩ := by
  obtain ⟨a, b, e⟩ := c
  cases a <;> cases b <;> cases e <;> simp [OutCauses.isEmpty]

/-! ### Latches -/

theorem TunnelLatches.get_set (l : TunnelLatches) (k : TunnelFault) (x : Option Latch) : (l.set k x).get k = x := by
  cases k <;> rfl

theorem DeviceLatches.get_set (l : DeviceLatches) (k : DeviceFault) (x : Option Latch) : (l.set k x).get k = x := by
  cases k <;> rfl

theorem DeviceLatches.set_set (l : DeviceLatches) (k : DeviceFault) (x y : Option Latch) :
    (l.set k x).set k y = l.set k y := by
  cases k <;> rfl

/-- The latch of a tunnel after it is set. -/
theorem Device.latch_setLatch (d : Device) (t : Nat) (k : TunnelFault) (l : Option Latch) :
    (d.setLatch t k l).latch t k = l := by
  unfold Device.latch Device.setLatch
  rw [Device.tunnel_modTunnel, if_pos rfl]
  exact TunnelLatches.get_set _ _ _

/-- A latch set leaves a tunnel's state. -/
theorem Device.state_setLatch (d : Device) (t : Nat) (k : TunnelFault) (l : Option Latch) (u : Nat) :
    ((d.setLatch t k l).tunnel u).state = (d.tunnel u).state := by
  unfold Device.setLatch
  rw [Device.tunnel_modTunnel]
  by_cases e : u = t
  · subst e; rw [if_pos rfl]; rfl
  · rw [if_neg e]

/-- A latch set leaves the profile a tunnel names. -/
theorem Device.profileOf_setLatch (d : Device) (t : Nat) (k : TunnelFault) (l : Option Latch) (u : Nat) :
    (d.setLatch t k l).profileOf u = d.profileOf u := d.profileOf_modTunnel t _ rfl u

/-! ### Named cells -/

theorem distinct_iff (l : List Nat) : distinct l = true ↔ l.Nodup := by
  induction l with
  | nil => simp [distinct]
  | cons a l ih => simp [distinct, ih]

/-- A list of cells that a request may name. -/
theorem cellsNamed_iff (count most : Nat) (cells : List Nat) :
    cellsNamed count most cells = true ↔
      ((1 ≤ count ∧ count ≤ most) ∧ ∀ n ∈ cells, n < 2048) ∧ cells.Nodup := by
  rw [← distinct_iff]
  simp [cellsNamed, within]

/-- A cell that a port's master may touch. -/
theorem CellStore.touchable_iff (c : CellStore) (p : Port) (n : Nat) :
    c.touchable p n = true ↔
      (p = .traffic ∧ ((c.cell n).state = .claimed .traffic ∨ (c.cell n).state = .done .traffic))
        ∨ (p = .key ∧ ((c.cell n).state = .claimed .key ∨ (c.cell n).state = .done .key)) := by
  cases p <;> simp [CellStore.touchable, ownerOf]

/-- A frame submitted by a port. -/
theorem Frame.submittedBy_iff (f : Frame) (p : Port) :
    f.submittedBy p = true ↔ (f.party = .trafficPort ∧ p = .traffic) ∨ (f.party = .keyPort ∧ p = .key) := by
  simp [Frame.submittedBy]

/-- A cell that a frame of a port holds. -/
theorem Engine.holdsFor_iff (e : Engine) (p : Port) (n : Nat) :
    e.holdsFor p n = true ↔ ∃ f ∈ e.held, f.submittedBy p = true ∧ n ∈ f.cells := by
  simp [Engine.holdsFor]

/-- An access meets the loss of its cell: the next command is one in whose event frames complete, a frame that the port
submitted holds the cell before it and none does after it, and the cell is then not the port's to touch (row 3 of R23;
log 40). -/
theorem Device.meetsLoss_iff (d : Device) (next : Option Instr) (p : Port) (n : Nat) :
    d.meetsLoss next p n = true ↔
      ∃ c e, next = some c ∧ d.completedBy c = some e ∧ d.engine.holdsFor p n = true
        ∧ e.engine.holdsFor p n = false ∧ e.store.touchable p n = false := by
  unfold Device.meetsLoss
  cases next with
  | none => simp
  | some c => cases h : d.completedBy c <;> simp [h, and_assoc]

/-- What the commands in whose events frames complete come to is what their execution answers. -/
theorem Device.completedBy_exec (s : State) (c : Instr) (e : Device) (h : s.dev.completedBy c = some e) :
    exec c s = .next { s with dev := e } := by
  unfold Device.completedBy at h
  split at h <;> first | (cases h; rfl) | cases h

/-! ### Numbers, windows and frames -/

theorem length_beBytes (w n : Nat) : (beBytes w n).length = w := by
  induction w with
  | zero => rfl
  | succ w ih => simp [beBytes, ih]

/-- The payload of a proof frame is as long as its pattern's entry says, for an entry of at least four bytes (R13). -/
theorem length_proofPayload (p : Pattern) (s : BitVec 32) : (proofPayload p s).length = 4 + (p.length - 4) := by
  simp [proofPayload, length_beBytes]

/-- The bytes of a wire frame: the payload and 32 more (R1). -/
theorem length_wireFrame (key : BitVec 256) (h : Header) (bs : List Byte) :
    (wireFrame key h bs).length = bs.length + 32 := by
  simp [wireFrame, Header.bytes, length_beBytes, Config.suite.textLength, Config.suite.tagLength]
  omega

theorem length_readSeq (c : CellStore) (cells : List Nat) (start len : Nat) :
    (c.readSeq cells start len).length = len := by
  simp [CellStore.readSeq]

/-- The members of an accepted set after a number is put in its place. -/
theorem mem_insertDown (s n : Nat) (l : List Nat) : n ∈ insertDown s l ↔ n = s ∨ n ∈ l := by
  induction l with
  | nil => simp [insertDown]
  | cons a l ih =>
    unfold insertDown
    split
    · simp
    · simp only [List.mem_cons, ih]
      exact ⟨fun h => by rcases h with h | h | h <;> simp [h], fun h => by rcases h with h | h | h <;> simp [h]⟩

/-- What the three things that a frame of the part needs say, in their order (R19, R20). -/
theorem Device.partGrant_eq (d : Device) (n : Nat) :
    d.partGrant n =
      if 256 < d.store.charged .reserved + n then .poolShort
      else if 64 ≤ d.engine.control.length ∨ 64 ≤ d.traffic.notices.length + d.generatedReserved then .placeShort
      else .granted := by
  unfold Device.partGrant CellStore.hasRoom Engine.hasRoom Device.generatedRoom
  show (if decide (_ + n ≤ 256) = true then
    (if (decide (d.engine.control.length < 64) && decide (d.traffic.notices.length + d.generatedReserved < 64)) = true
      then _ else _) else _) = _
  by_cases a : 256 < d.store.charged .reserved + n
  · rw [if_pos a, if_neg (by simpa using a)]
  · rw [if_neg a, if_pos (by simpa using a)]
    by_cases b : 64 ≤ d.engine.control.length ∨ 64 ≤ d.traffic.notices.length + d.generatedReserved
    · rw [if_pos b, if_neg (by simp; omega)]
    · rw [if_neg b, if_pos (by simp; omega)]

end Sys2Proof.Machine
end

