-- ==== Sys2Proof/Laws/Events.lean ====
section
/-! SUPPORT. What an operation of the blocks can do to the clock, the settings that only a load changes, the queues'
lengths and the order of the cell store: one relation, which each operation is shown to keep to. -/

namespace Sys2Proof.Machine

/-- What an operation inside an event can do: the clock, the image and the device settings stay; no queue grows past
its capacity; the cell store stays in order. -/
structure Change (a b : Device) : Prop where
  clock : b.clock = a.clock := by rfl
  image : b.image = a.image := by rfl
  loading : b.loading = a.loading := by rfl
  deviceReport : b.deviceReport = a.deviceReport := by rfl
  lowMark : b.keys.lowMark = a.keys.lowMark := by rfl
  marks : b.engine.marks = a.engine.marks := by rfl
  queues : ∀ q, (b.engine.queue q).length ≤ (a.engine.queue q).length ∨ (b.engine.queue q).length ≤ q.capacity := by
    exact fun _ => Or.inl (Nat.le_refl _)
  jobs : b.keys.jobs.length ≤ a.keys.jobs.length ∨ b.keys.jobs.length ≤ 8 := by exact Or.inl (Nat.le_refl _)
  requests : ∀ p, (b.port p).requests.length ≤ (a.port p).requests.length := by exact fun _ => Nat.le_refl _
  key : b.key.notices.length ≤ a.key.notices.length ∨ b.key.notices.length ≤ 64 := by exact Or.inl (Nat.le_refl _)
  ops : b.opsTaken ≤ a.opsTaken ∨ b.opsTaken ≤ 128 := by exact Or.inl (Nat.le_refl _)
  store : a.store.Ok → b.store.Ok := by exact fun h => h

/-! ### The engine's tests keep its marks and its queues -/

theorem Engine.exitTest_only (e : Engine) : ∃ m, e.exitTest = { e with mode := m } := by
  unfold Engine.exitTest
  split
  · split
    · exact ⟨_, rfl⟩
    · exact ⟨_, rfl⟩
    · exact ⟨e.mode, rfl⟩
    · exact ⟨e.mode, rfl⟩
  · exact ⟨e.mode, rfl⟩

theorem Engine.emptyTest_only (e : Engine) : ∃ m, e.emptyTest = { e with mode := m } := by
  unfold Engine.emptyTest
  split
  · split
    · exact ⟨_, rfl⟩
    · exact ⟨e.mode, rfl⟩
  · exact ⟨e.mode, rfl⟩

theorem Engine.countBatch_only (e : Engine) : ∃ m, e.countBatch = { e with mode := m } := by
  unfold Engine.countBatch
  split
  · split
    · exact ⟨_, rfl⟩
    · exact ⟨_, rfl⟩
  · exact ⟨e.mode, rfl⟩

theorem Engine.queue_setMode (e : Engine) (m : Mode) (q : Queue) : { e with mode := m }.queue q = e.queue q := by
  cases q <;> rfl

theorem Engine.marks_exitTest (e : Engine) : e.exitTest.marks = e.marks := by
  obtain ⟨m, h⟩ := e.exitTest_only; rw [h]

theorem Engine.queue_exitTest (e : Engine) (q : Queue) : e.exitTest.queue q = e.queue q := by
  obtain ⟨m, h⟩ := e.exitTest_only; rw [h, queue_setMode]

theorem Engine.marks_emptyTest (e : Engine) : e.emptyTest.marks = e.marks := by
  obtain ⟨m, h⟩ := e.emptyTest_only; rw [h]

theorem Engine.queue_emptyTest (e : Engine) (q : Queue) : e.emptyTest.queue q = e.queue q := by
  obtain ⟨m, h⟩ := e.emptyTest_only; rw [h, queue_setMode]

/-- The tests after a take change the mode and the turn at most. -/
theorem Engine.afterTake_only (e : Engine) (q : Queue) : ∃ m t, e.afterTake q = { e with mode := m, turn := t } := by
  have tests : ∀ e' : Engine, (∃ t, e' = { e with turn := t }) →
      (∃ m t, e'.exitTest = { e with mode := m, turn := t })
        ∧ (∃ m t, e'.countBatch.emptyTest = { e with mode := m, turn := t })
        ∧ ∃ m t, e' = { e with mode := m, turn := t } := by
    rintro _ ⟨t, rfl⟩
    obtain ⟨m, k⟩ := Engine.exitTest_only { e with turn := t }
    obtain ⟨m', k'⟩ := Engine.countBatch_only { e with turn := t }
    obtain ⟨n, l⟩ := Engine.emptyTest_only { e with turn := t, mode := m' }
    exact ⟨⟨m, t, k⟩, ⟨n, t, by rw [k']; exact l⟩, e.mode, t, rfl⟩
  have pointer : ∃ t, ((match e.mode with
      | .base .normal => { e with turn := e.turn.next }
      | .base .settleFirst | .rescue _ _ => e) : Engine) = { e with turn := t } := by
    split
    · exact ⟨_, rfl⟩
    · exact ⟨e.turn, rfl⟩
    · exact ⟨e.turn, rfl⟩
  have h := tests _ pointer
  cases q
  · exact h.2.2
  · exact h.1
  · exact h.2.1

theorem Engine.marks_afterTake (e : Engine) (q : Queue) : (e.afterTake q).marks = e.marks := by
  obtain ⟨m, t, h⟩ := e.afterTake_only q; rw [h]

theorem Engine.queue_afterTake (e : Engine) (q r : Queue) : (e.afterTake q).queue r = e.queue r := by
  obtain ⟨m, t, h⟩ := e.afterTake_only q; rw [h]; cases r <;> rfl

/-! ### A dialogue that follows -/

theorem noticeLast_perm (ns : List Notice) (place : Nat) : (noticeLast ns place).Perm ns := by
  unfold noticeLast
  by_cases h : place < ns.length
  · rw [List.getElem?_eq_getElem h, Option.toList_some, List.append_assoc]
    have e : ns.take place ++ (ns[place] :: ns.drop (place + 1)) = ns := by
      rw [← List.drop_eq_getElem_cons h, List.take_append_drop]
    exact (List.Perm.append_left _ List.perm_append_comm).trans (by rw [List.singleton_append, e])
  · have h : ns.length ≤ place := Nat.le_of_not_lt h
    rw [List.getElem?_eq_none h, List.take_of_length_le h, List.drop_of_length_le (Nat.le_succ_of_le h)]
    simp

/-- What the end of an inbound completion can do: what the end of an event does, the key port's notices permuted. -/
theorem Device.finishInbound_notices (d : Device) (before : Nat) :
    ∃ ns, ns.Perm d.finish.key.notices
      ∧ d.finishInbound before = d.finish.modPort .key fun x => { x with notices := ns } := by
  unfold Device.finishInbound
  generalize d.finish = e
  split
  · exact ⟨noticeLast e.key.notices before, noticeLast_perm _ _, rfl⟩
  · exact ⟨e.key.notices, .refl _, rfl⟩

/-- What a request's own part comes to keeps to the relation. -/
def Taken.Keeps (d : Device) : Taken → Prop
  | .refuse _ => True
  | .quiet d' _ => Change d d'
  | .answer d' _ => Change d d'
  | .wait d' => Change d d'

namespace Change

theorem refl (d : Device) : Change d d := {}

theorem trans {a b c : Device} (h : Change a b) (k : Change b c) : Change a c where
  clock := k.clock.trans h.clock
  image := k.image.trans h.image
  loading := k.loading.trans h.loading
  deviceReport := k.deviceReport.trans h.deviceReport
  lowMark := k.lowMark.trans h.lowMark
  marks := k.marks.trans h.marks
  queues := fun q => by have := h.queues q; have := k.queues q; omega
  jobs := by have := h.jobs; have := k.jobs; omega
  requests := fun p => Nat.le_trans (k.requests p) (h.requests p)
  key := by have := h.key; have := k.key; omega
  ops := by have := h.ops; have := k.ops; omega
  store := fun x => k.store (h.store x)

theorem foldl {α : Type} (f : Device → α → Device) (hf : ∀ d a, Change d (f d a)) (xs : List α) :
    ∀ d, Change d (xs.foldl f d) := by
  induction xs with
  | nil => exact refl
  | cons x xs ih => exact fun d => (hf d x).trans (ih _)

/-- A choice between two changed parts. -/
theorem ite {c : Prop} [Decidable c] {a x y : Device} (hx : c → Change a x) (hy : ¬ c → Change a y) :
    Change a (if c then x else y) := by
  split
  · exact hx ‹_›
  · exact hy ‹_›

variable (d : Device)

/-! ### Named updates -/

theorem setTunnel (t : Nat) (r : Tunnel) : Change d (d.setTunnel t r) := {}
theorem modTunnel (t : Nat) (f : Tunnel → Tunnel) : Change d (d.modTunnel t f) := {}
theorem modCondition (t : Nat) (f : Condition → Condition) : Change d (d.modCondition t f) := {}
theorem modTunnels (f : Tunnel → Tunnel) : Change d (d.modTunnels f) := foldl _ (fun _ _ => modTunnel _ _ _) _ _
theorem setEntry (e : Nat) (v : KeyEntry) : Change d (d.setEntry e v) := {}
theorem give (e : EventSource) (c : Option Nat) : Change d (d.give e c) := {}
theorem judgeEdges : Change d d.judgeEdges := {}
theorem setLatch (t : Nat) (k : TunnelFault) (l : Option Latch) : Change d (d.setLatch t k l) := {}

theorem setFaults (f : DeviceLatches) : Change d { d with faults := f } := {}
theorem setBank (b : Bank) : Change d { d with bank := b } := {}
theorem setDue (b : Bool) : Change d { d with buildDue := b } := {}
theorem setProfiles (ps : List Profile) : Change d { d with profiles := ps } := {}

/-- The proof unit replaced, with no proof running that was not. -/
theorem setProofs (u : ProofUnit) (h : u.running.isSome = true → d.proofs.running.isSome = true) :
    Change d { d with proofs := u } where
  ops := by
    left
    show d.operations.notices.length + bit u.running.isSome ≤ d.operations.notices.length + bit d.proofs.running.isSome
    cases hu : u.running.isSome
    · exact Nat.add_le_add_left (Nat.zero_le _) _
    · exact Nat.le_of_eq (by rw [h hu])

theorem countMicrosecond : Change d d.countMicrosecond := by
  unfold Device.countMicrosecond; split <;> exact {}

/-- A change of a port that grows neither its request queue nor its notice queue. -/
theorem modPort (p : Port) (f : PortState → PortState)
    (h1 : (f (d.port p)).requests.length ≤ (d.port p).requests.length)
    (h2 : (f (d.port p)).notices.length ≤ (d.port p).notices.length) : Change d (d.modPort p f) := by
  cases p
  · exact { requests := fun q => by cases q <;> first | exact h1 | exact Nat.le_refl _ }
  · exact { requests := fun q => by cases q <;> first | exact h1 | exact Nat.le_refl _
            key := Or.inl h2 }
  · exact { requests := fun q => by cases q <;> first | exact h1 | exact Nat.le_refl _
            ops := Or.inl (Nat.add_le_add_right h2 _) }

theorem queueResponse (p : Port) (n : Nat) (r : Response) (k : Nat) : Change d (d.queueResponse p n r k) :=
  modPort d p _ (Nat.le_refl _) (Nat.le_refl _)

theorem answerDeferred (p : Port) (tag : BitVec 16) (c : Nat) (st : Status) (o : Result) (b : Body) :
    Change d (d.answerDeferred p tag c st o b) := queueResponse _ _ _ _ _

theorem pushTraffic (n : Notice) : Change d (d.pushNotice .traffic n) where
  requests := fun q => by cases q <;> exact Nat.le_refl _

theorem pushKey (n : Notice) (hr : d.keyRoom = true) : Change d (d.pushNotice .key n) where
  requests := fun q => by cases q <;> exact Nat.le_refl _
  key := by
    have : d.key.notices.length < 64 := of_decide_eq_true hr
    right
    show (d.key.notices ++ [n]).length ≤ 64
    rw [List.length_append]; exact this

theorem pushOps (n : Notice) (hr : d.opsRoom = true) : Change d (d.pushNotice .operations n) where
  requests := fun q => by cases q <;> exact Nat.le_refl _
  ops := by
    have hr : d.operations.notices.length + bit d.proofs.running.isSome < 128 := of_decide_eq_true hr
    right
    show (d.operations.notices ++ [n]).length + bit d.proofs.running.isSome ≤ 128
    rw [List.length_append]
    show d.operations.notices.length + 1 + _ ≤ 128
    omega

theorem passCells (cells : List Nat) (s : CellState) (hs : s ≠ .free) : Change d (d.passCells cells s) where
  store := fun h => h.pass s cells hs

theorem freeCells (cells : List Nat) : Change d (d.freeCells cells) where
  store := fun h => h.release cells

/-! ### Faults -/

theorem offerDevice (k : DeviceFault) : Change d (d.offerDevice k) := by
  unfold Device.offerDevice
  split
  · refine ite (fun h => ?_) fun _ => refl d
    rw [Bool.and_eq_true] at h
    exact (setFaults d _).trans (pushOps _ _ h.2)
  · exact refl d

theorem offerTunnel (t : Nat) (k : TunnelFault) : Change d (d.offerTunnel t k) := by
  unfold Device.offerTunnel
  split
  · refine ite (fun h => ?_) fun _ => refl d
    rw [Bool.and_eq_true] at h
    exact (setLatch d _ _ _).trans (pushOps _ _ h.2)
  · exact refl d

theorem offer (r : FaultRef) : Change d (d.offer r) := by
  cases r
  · exact offerDevice d _
  · exact offerTunnel d _ _

theorem deviceFault (k : DeviceFault) (n : Nat) : Change d (d.deviceFault k n) := by
  unfold Device.deviceFault
  split
  · exact setFaults d _
  · exact ((setFaults d _).trans (offerDevice _ _)).trans (give _ _ _)

theorem latchTunnel (t : Nat) (k : TunnelFault) (n : Nat) (b : Bool) : Change d (d.latchTunnel t k n b) := by
  unfold Device.latchTunnel
  split
  · exact setLatch _ _ _ _
  · exact ((setLatch _ _ _ _).trans (offerTunnel _ _ _)).trans (give _ _ _)

theorem faultScan (n : Nat) : Change d (d.faultScan n) := foldl _ (fun _ _ => offer _ _) _ _

theorem freezeOnOverflow : Change d d.freezeOnOverflow := by
  unfold Device.freezeOnOverflow
  exact ite (fun _ => (setBank d _).trans (deviceFault _ _ _)) fun _ => refl d

theorem closeEvent : Change d d.closeEvent := (judgeEdges d).trans (freezeOnOverflow _)

/-! ### Proofs -/

theorem setProof (r : ProofRecord) (hr : d.proofs.running.isSome = true) : Change d (d.setProof (some r)) where
  ops := by
    left
    show d.operations.notices.length + 1 ≤ d.operations.notices.length + bit d.proofs.running.isSome
    rw [hr]; exact Nat.le_refl _

theorem queuePart (party : Party) (t : Nat) (k : FrameKind) (bs : List Byte) (pr : Option (BitVec 32 × Nat))
    (hc : d.engine.hasRoom .control = true)
    (hs : d.store.hasRoom .reserved (cellsFor (bs.length + 32)) = true) : Change d (d.queuePart party t k bs pr) where
  queues := fun q => by
    cases q
    · right
      have : d.engine.control.length < 64 := of_decide_eq_true hc
      show (d.engine.control ++ [_]).length ≤ 64
      rw [List.length_append]; exact this
    · exact Or.inl (Nat.le_refl _)
    · exact Or.inl (Nat.le_refl _)
  store := fun h => (h.grant .reserved .queued (by decide) _ hs).lay _ _

theorem of_granted {d : Device} {n : Nat} (h : d.partGrant n = .granted) :
    d.store.hasRoom .reserved n = true ∧ d.engine.hasRoom .control = true := by
  unfold Device.partGrant at h
  split at h
  · split at h
    · rename_i h1 h2
      rw [Bool.and_eq_true] at h2
      exact ⟨h1, h2.1⟩
    · cases h
  · cases h

theorem cellsFor_proofPayload (p : Pattern) (s : BitVec 32) :
    cellsFor ((proofPayload p s).length + 32) = cellsFor (p.length + 32) := by
  rw [length_proofPayload]; unfold cellsFor; omega

theorem buildAttempt : Change d d.buildAttempt := by
  unfold Device.buildAttempt
  simp only
  split
  · rename_i r hr
    refine ite (fun _ => ?_) fun _ => setDue d false
    split
    · rename_i hg
      obtain ⟨g1, g2⟩ := of_granted hg
      have hr : d.proofs.running = some r := hr
      refine ((setDue d false).trans (setProofs _ _ fun _ => ?_)).trans (queuePart _ _ _ _ _ _ g2 ?_)
      · show d.proofs.running.isSome = true
        rw [hr]; rfl
      · rw [cellsFor_proofPayload]; exact g1
    · exact (setDue d false).trans (deviceFault _ _ _)
    · exact setDue d false
  · exact setDue d false

theorem startProof (t : Nat) (u : Purpose) (m : ProofMode) (n : Nat) (ho : d.opsQueueOpen = true) :
    Change d (d.startProof t u m n) := by
  unfold Device.startProof
  refine trans ?_ (buildAttempt _)
  exact {
    ops := by
      have : d.operations.notices.length < 128 := of_decide_eq_true ho
      right; exact this }

theorem retryStartTest : Change d d.retryStartTest := by
  unfold Device.retryStartTest
  split
  · rename_i t rest _ _
    exact ite (fun ho => (setProofs d { d.proofs with retry := rest } id).trans (startProof _ _ _ _ _ ho))
      fun _ => refl d
  · exact refl d

theorem joinRetry (t : Nat) : Change d (d.joinRetry t) :=
  (setProofs d { d.proofs with retry := d.proofs.retry ++ [t] } id).trans (retryStartTest _)

theorem retryResult (t : Nat) (r : ProofResult) (c : Option AbortCause) : Change d (d.retryResult t r c) := by
  unfold Device.retryResult
  exact ite (fun _ => modTunnel _ _ _) fun _ => ite (fun _ => modTunnel _ _ _) fun _ => refl d

theorem proofFault (r : ProofRecord) (x : ProofResult) (c : Option AbortCause) : Change d (d.proofFault r x c) := by
  unfold Device.proofFault
  split
  · exact ite (fun _ => latchTunnel _ _ _ _ _) fun _ => refl d
  · exact ite (fun _ => latchTunnel _ _ _ _ _) fun _ => refl d

/-- The PROOF_DONE notice takes the place that the proof that has just ended held. -/
theorem pushDone (e : Device) (n : Notice) (h : Change { d with proofs := { d.proofs with running := none } } e)
    (hr : d.proofs.running.isSome = true) (ho : e.opsTaken = d.operations.notices.length) :
    Change d (e.pushNotice .operations n) :=
  have k : Change d e := (setProofs d { d.proofs with running := none } fun h => absurd h Bool.false_ne_true).trans h
  { clock := k.clock
    image := k.image
    loading := k.loading
    deviceReport := k.deviceReport
    lowMark := k.lowMark
    marks := k.marks
    queues := k.queues
    jobs := k.jobs
    requests := fun q => Nat.le_trans (by cases q <;> exact Nat.le_refl _) (k.requests q)
    key := k.key
    ops := by
      left
      have h1 : e.operations.notices.length + bit e.proofs.running.isSome = d.operations.notices.length := ho
      show (e.operations.notices ++ [n]).length + bit e.proofs.running.isSome
        ≤ d.operations.notices.length + bit d.proofs.running.isSome
      rw [hr, List.length_append]
      show e.operations.notices.length + 1 + _ ≤ d.operations.notices.length + 1
      omega
    store := k.store }

theorem opsTaken_retryResult (t : Nat) (r : ProofResult) (c : Option AbortCause) :
    (d.retryResult t r c).opsTaken = d.opsTaken := by
  unfold Device.retryResult
  by_cases h : r = .passed
  · rw [if_pos h]; rfl
  · rw [if_neg h]
    by_cases k : countsAsFailed r c = true
    · rw [if_pos k]; rfl
    · rw [if_neg k]

theorem endProof (x : ProofResult) (c : Option AbortCause) : Change d (d.endProof x c) := by
  unfold Device.endProof
  split
  · exact refl d
  · rename_i r hr
    simp only
    refine ((pushDone d _ _ ?_ (by rw [hr]; rfl) ?_).trans (proofFault _ _ _ _)).trans (retryStartTest _)
    · refine (trans ?_ (modTunnel _ r.tunnel _)).trans (ite (fun _ => retryResult _ _ _ _) fun _ => refl _)
      exact setProofs { d with proofs := { d.proofs with running := none } } _ id
    · split
      · rw [opsTaken_retryResult]; rfl
      · rfl

theorem abortProof (t : Nat) (c : AbortCause) (f : Purpose → Bool) : Change d (d.abortProof t c f) := by
  unfold Device.abortProof
  split
  · exact ite (fun _ => endProof _ _ _) fun _ => refl d
  · exact refl d

theorem proofReport (s : BitVec 32) (o : Result) : Change d (d.proofReport s o) := by
  unfold Device.proofReport
  split
  · rename_i r hr
    refine ite (fun _ => ?_) fun _ => refl d
    split
    · refine trans (b := { d with draws := if r.sent < Config.max32 then d.draws else d.draws + 1 }) {} ?_
      exact setProof _ _ (by show d.proofs.running.isSome = true; rw [hr]; rfl)
    · exact endProof _ _ _
    · exact endProof _ _ _
    · exact refl d
  · exact refl d

theorem waitFor (r : ProofRecord) (e : Nat) (hr : d.proofs.running.isSome = true) : Change d (d.waitFor r e) :=
  (setProof d _ hr).trans (buildAttempt _)

theorem advanceProof : Change d d.advanceProof := by
  unfold Device.advanceProof
  split
  · exact refl d
  · rename_i r hr
    have hs : d.proofs.running.isSome = true := by rw [hr]; rfl
    split
    · exact waitFor d _ _ hs
    · exact ite (fun _ => (setProof d _ hs).trans (endProof _ _ _)) fun _ => waitFor d _ _ hs

theorem proofMiss (r : ProofRecord) (s : BitVec 32) (k : MissKind) (e : Option (List Byte))
    (hr : d.proofs.running.isSome = true) : Change d (d.proofMiss r s k e) := by
  unfold Device.proofMiss
  simp only
  split
  · refine trans ?_ (endProof _ _ _)
    exact ((setProof d _ hr).trans (give _ .proofMisses (some r.tunnel))).trans (setProofs _ _ id)
  · exact ((setProof d _ hr).trans (give _ .proofMisses (some r.tunnel))).trans (advanceProof _)

theorem strayEcho (t : Nat) : Change d (d.strayEcho t) := by
  unfold Device.strayEcho
  refine trans ?_ (give _ _ _)
  split
  · rename_i r hr
    exact ite (fun _ => setProof d _ (by rw [hr]; rfl)) fun _ => refl d
  · exact refl d

theorem handEcho (t k : Nat) (bs : List Byte) : Change d (d.handEcho t k bs) := by
  unfold Device.handEcho
  split
  · rename_i r s ha
    have hr : d.proofs.running.isSome = true := by
      unfold Device.awaited at ha
      split at ha
      · rename_i h; rw [h]; rfl
      · cases ha
    exact ite (fun _ => advanceProof d) fun _ => proofMiss d _ _ _ _ hr
  · exact strayEcho d _

theorem isolate (t : Nat) : Change d (d.isolate t) := (modTunnel _ _ _).trans (abortProof _ _ _ _)

theorem tunnelFault (t : Nat) (k : TunnelFault) (n : Nat) : Change d (d.tunnelFault t k n) := by
  unfold Device.tunnelFault
  exact ite (fun _ => (latchTunnel _ _ _ _ _).trans (isolate _ _)) fun _ => latchTunnel _ _ _ _ _

/-! ### Keys -/

theorem modKeyOf (t e : Nat) (f : KeyRecord → KeyRecord) : Change d (d.modKeyOf t e f) := by
  unfold Device.modKeyOf
  split
  · exact modTunnel _ _ _
  · exact refl d

theorem dropKey (t : Nat) (s : Slot) : Change d (d.dropKey t s) := by
  unfold Device.dropKey
  split
  · exact (setEntry _ _ _).trans (modTunnel _ _ _)
  · exact refl d

theorem retireKey (t : Nat) (s : Slot) : Change d (d.retireKey t s) := by
  unfold Device.retireKey
  split
  · exact ite (fun _ => modTunnel _ _ _) fun _ => dropKey _ _ _
  · exact refl d

theorem releaseKey (t e : Nat) : Change d (d.releaseKey t e) := by
  unfold Device.releaseKey
  split
  · exact ite (fun _ => (modTunnel _ _ _).trans (dropKey _ _ _)) fun _ => modTunnel _ _ _
  · exact refl d

theorem offerFlag (x : Nat × Slot × KeyFlag) : Change d (d.offerFlag x) := by
  unfold Device.offerFlag
  split
  · split
    · exact ite (fun h => (modTunnel d _ _).trans (pushKey _ _ h)) fun _ => refl d
    · exact refl d
  · exact refl d

theorem offerFlags : Change d d.offerFlags := foldl _ offerFlag _ _

theorem keyFlagScan (n : Nat) : Change d (d.keyFlagScan n) := foldl _ offerFlag _ _

theorem addKeyCause (t : Nat) (c : KeyCause) : Change d (d.addKeyCause t c) := by
  unfold Device.addKeyCause
  exact ite (fun _ => (modTunnel _ _ _).trans (abortProof _ _ _ _)) fun _ => modTunnel _ _ _

theorem earlyRetire (t : Nat) : Change d (d.earlyRetire t).1 := by
  unfold Device.earlyRetire
  split
  · exact (retireKey _ _ _).trans (give _ _ _)
  · exact refl d

theorem demote (t : Nat) (k : KeyRecord) (g : Option Clock) (b : Bool) : Change d (d.demote t k g b) := modTunnel _ _ _

theorem demotion (t : Nat) : Change d (d.demotion t).1 := by
  unfold Device.demotion
  simp only
  split
  · exact refl d
  · split
    · exact ite (fun _ => retireKey _ _ _) fun _ => (retireKey _ _ _).trans (give _ _ _)
    · split
      · exact demote _ _ _ _ _
      · exact demote _ _ _ _ _
      · split
        · exact demote _ _ _ _ _
        · exact retireKey _ _ _

theorem advanceKey (t : Nat) (k : KeyRecord) : Change d (d.advanceKey t k) := by
  unfold Device.advanceKey; exact modTunnel _ _ _

theorem promote (t : Nat) : Change d (d.promote t).1 := by
  unfold Device.promote
  split
  · exact refl d
  · exact (((earlyRetire d t).trans (demotion _ _)).trans (advanceKey _ _ _)).trans (give _ _ _)

theorem followTest (t e : Nat) : Change d (d.followTest t e) := by
  unfold Device.followTest
  simp only
  split
  · exact ite (fun _ => ((promote d t).trans (modTunnel _ _ _)).trans (give _ _ _)) fun _ => refl d
  · exact refl d

theorem bindOutbound (t : Nat) : Change d (d.bindOutbound t) := by
  unfold Device.bindOutbound
  split
  · exact refl d
  · exact ite (fun _ => (modTunnel _ _ _).trans (addKeyCause _ _ _)) fun _ => modTunnel _ _ _

theorem softAge (t : Nat) : Change d (d.softAge t) := modTunnel _ _ _

theorem hardAge (t : Nat) : Change d (d.hardAge t) := by
  unfold Device.hardAge
  split
  · exact refl d
  · exact ((modTunnel _ _ _).trans (addKeyCause _ _ _)).trans (tunnelFault _ _ _ _)

theorem reexamineTunnel (t : Nat) : Change d (d.reexamineTunnel t) := by
  unfold Device.reexamineTunnel
  split
  · exact refl d
  · rename_i c _
    simp only
    have h1 : Change d (d.modTunnel t fun x => { x with current := some (c.reexamine (d.profileOf t) (d.ageOf c.key)) }) :=
      modTunnel _ _ _
    revert h1
    generalize (d.modTunnel t fun x => { x with current := some (c.reexamine (d.profileOf t) (d.ageOf c.key)) }) = d1
    intro h1
    have h2 : ∀ (x y : Bool), Change d1
        (if y = true then (if x = true then d1.addKeyCause t .expired else d1).addKeyCause t .spent
          else (if x = true then d1.addKeyCause t .expired else d1)) := by
      intro x y
      have hx : Change d1 (if x = true then d1.addKeyCause t .expired else d1) :=
        ite (fun _ => addKeyCause _ _ _) fun _ => refl _
      exact ite (fun _ => hx.trans (addKeyCause _ _ _)) fun _ => hx
    exact h1.trans (ite (fun _ => (h2 _ _).trans (tunnelFault _ _ _ _)) fun _ => h2 _ _)

theorem reexamine (n : Nat) : Change d (d.reexamine n) :=
  foldl _ (fun d t => ite (fun _ => reexamineTunnel d t) fun _ => refl d) _ _

/-! ### The condition monitor -/

theorem countOutcome (t : Nat) (k : Counted) : Change d (d.countOutcome t k) := modCondition _ _ _
theorem authenticated (t : Nat) : Change d (d.authenticated t) := modCondition _ _ _
theorem outboundSent (t : Nat) : Change d (d.outboundSent t) := modCondition _ _ _
theorem keepaliveSent (t : Nat) : Change d (d.keepaliveSent t) := (modCondition _ _ _).trans (give _ _ _)
theorem keepaliveEnded (t : Nat) : Change d (d.keepaliveEnded t) := modCondition _ _ _
theorem skipKeepalive (t : Nat) : Change d (d.skipKeepalive t) := (modCondition _ _ _).trans (give _ _ _)

theorem intervalEnds (t : Nat) : Change d (d.intervalEnds t) := by
  unfold Device.intervalEnds
  simp only
  have h (a : Device) (c : Prop) [Decidable c] (k : TunnelFault) (n : Nat) (ha : Change d a) :
      Change d (if c then a.tunnelFault t k n else a) :=
    Change.ite (fun _ => ha.trans (tunnelFault a t k n)) fun _ => ha
  exact (h _ _ _ _ (h _ _ _ _ (h _ _ _ _ (modCondition _ _ _)))).trans (modTunnel _ _ _)

theorem silenceEnds (t : Nat) : Change d (d.silenceEnds t) := (tunnelFault _ _ _ _).trans (modCondition _ _ _)

theorem keepaliveEnds (t : Nat) : Change d (d.keepaliveEnds t) := by
  unfold Device.keepaliveEnds
  simp only
  split
  · split
    · rename_i h
      obtain ⟨h1, h2⟩ := of_granted h
      exact ((modCondition _ _ _).trans (queuePart _ .conditionMonitor t .keepalive [] none h2 h1)).trans (modCondition _ _ _)
    · exact ((modCondition _ _ _).trans (deviceFault _ _ _)).trans (skipKeepalive _ _)
    · exact (modCondition _ _ _).trans (skipKeepalive _ _)
  · exact modCondition _ _ _

/-! ### The engine -/

/-- The engine replaced, with its marks and with no queue grown. -/
theorem setEngineDue (e : Engine) (b : Bool) (hm : e.marks = d.engine.marks)
    (hq : ∀ q, (e.queue q).length ≤ (d.engine.queue q).length) : Change d { d with engine := e, buildDue := b } where
  marks := hm
  queues := fun q => Or.inl (hq q)

theorem setEngine (e : Engine) (hm : e.marks = d.engine.marks)
    (hq : ∀ q, (e.queue q).length ≤ (d.engine.queue q).length) : Change d { d with engine := e } :=
  setEngineDue d e d.buildDue hm hq

theorem placeFreed (f : Frame) : Change d (d.placeFreed f) := setDue _ _

theorem uncount (t : Nat) : Change d (d.uncount t) := modTunnel _ _ _

theorem entryTest : Change d d.entryTest := by
  unfold Device.entryTest
  refine ite (fun _ => ?_) fun _ => refl d
  split
  · exact (setEngine d { d.engine with mode := .base .settleFirst } rfl fun q => by cases q <;> exact Nat.le_refl _).trans
      (give _ _ _)
  · rename_i n _
    exact (setEngine d { d.engine with mode := .rescue .settleFirst n } rfl
      fun q => by cases q <;> exact Nat.le_refl _).trans (give _ _ _)
  · exact refl d
  · exact refl d

/-- A frame placed at the tail of a queue that has room. -/
theorem place (q : Queue) (f : Frame) (h : d.engine.hasRoom q = true) :
    Change d { d with engine := d.engine.setQueue q (d.engine.queue q ++ [f]) } where
  marks := by cases q <;> rfl
  queues := fun r => by
    have h : (d.engine.queue q).length < q.capacity := of_decide_eq_true h
    have g : (d.engine.queue q ++ [f]).length ≤ q.capacity := by rw [List.length_append]; exact h
    cases q <;> cases r <;> first | exact Or.inr g | exact Or.inl (Nat.le_refl _)

theorem submit (q : Queue) (f : Frame) (h : d.engine.hasRoom q = true) : Change d (d.submit q f) := by
  have k : Change d ((d.passCells f.cells .queued).modTunnel f.tunnel fun x => { x with frameCount := x.frameCount + 1 }) :=
    (passCells d _ _ (by decide)).trans (modTunnel _ _ _)
  have k2 := k.trans (place _ q f h)
  unfold Device.submit
  exact ite (fun _ => k2.trans (entryTest _)) fun _ => k2

theorem failOutbound (f : Frame) (o : Result) : Change d (d.failOutbound f o) := by
  have k : Change d ((d.uncount f.tunnel).placeFreed f) := (uncount _ _).trans (placeFreed _ _)
  unfold Device.failOutbound
  simp only
  split
  · exact ite (fun _ => k.trans (freeCells _ _))
      fun _ => (k.trans (passCells _ _ _ (by decide))).trans (answerDeferred _ _ _ _ _ _ _)
  · exact ite (fun _ => k.trans (freeCells _ _))
      fun _ => (k.trans (passCells _ _ _ (by decide))).trans (answerDeferred _ _ _ _ _ _ _)
  · exact (k.trans (freeCells _ _)).trans (keepaliveEnded _ _)
  · split
    · exact (k.trans (freeCells _ _)).trans (proofReport _ _ _)
    · exact k.trans (freeCells _ _)

theorem reportInbound (t : Nat) (o : Result) : Change d (d.reportInbound t o) := by
  unfold Device.reportInbound
  have h : Change d (match (inboundReport o).1 with
      | some k => d.countOutcome t k
      | none => d) := by
    split
    · exact countOutcome _ _ _
    · exact refl d
  simp only
  split
  · exact h.trans (give _ _ _)
  · exact h

theorem answerInbound (f : Frame) (o : Result) (b : Body) : Change d (d.answerInbound f o b) := by
  unfold Device.answerInbound
  exact ite (fun _ => refl d) fun _ => answerDeferred _ _ _ _ _ _ _

theorem failInbound (f : Frame) (o : Result) (b : Body) : Change d (d.failInbound f o b) :=
  (((uncount _ _).trans (freeCells _ _)).trans (answerInbound _ _ _ _)).trans (reportInbound _ _ _)

theorem closeFrame (f : Frame) : Change d (d.closeFrame f) := by
  unfold Device.closeFrame
  split
  · exact failOutbound _ _ _
  · exact failInbound _ _ _ _

theorem marks_ite (e : Engine) {c : Prop} [Decidable c] {f : Engine → Engine} (h : ∀ e, (f e).marks = e.marks) :
    (if c then f e else e).marks = e.marks := by
  split
  · exact h e
  · rfl

theorem queue_ite (e : Engine) {c : Prop} [Decidable c] {f : Engine → Engine} {q : Queue}
    (h : ∀ e, (f e).queue q = e.queue q) : (if c then f e else e).queue q = e.queue q := by
  split
  · exact h e
  · rfl

theorem queue_without (e : Engine) (t : Nat) (q : Queue) :
    ((e.queue q).filter fun f => !decide (f.tunnel = t)).length ≤ (e.queue q).length := List.length_filter_le _ _

theorem removeFrames (t : Nat) : Change d (d.removeFrames t) := by
  unfold Device.removeFrames
  simp only
  refine trans ?_ (foldl _ closeFrame _ _)
  refine setEngineDue d _ _ ?_ fun q => Nat.le_trans (Nat.le_of_eq (congrArg List.length ?_))
    (queue_without d.engine t q)
  · rw [marks_ite _ Engine.marks_emptyTest, marks_ite _ Engine.marks_exitTest]
  · rw [queue_ite _ (fun e => Engine.queue_emptyTest e q), queue_ite _ (fun e => Engine.queue_exitTest e q)]
    cases q <;> rfl

theorem inWorkNone : Change d { d with engine := { d.engine with inWork := none } } :=
  setEngine d { d.engine with inWork := none } rfl fun q => by cases q <;> exact Nat.le_refl _

theorem endClosing (t : Nat) : Change d (d.endClosing t) := by
  unfold Device.endClosing
  refine ite (fun _ => ?_) fun _ => refl d
  have k := ((((removeFrames d t).trans (dropKey _ t .next)).trans (dropKey _ t .current)).trans
    (dropKey _ t .previous)).trans (modTunnel _ t fun x =>
      { x with
        state := .empty, shop := none, profile := none, outCauses := ⟨false, false, false⟩, inOps := false
        retryCount := 0, closeTag := none })
  split
  · exact k.trans (answerDeferred _ _ _ _ _ _ _)
  · exact k

theorem setInWork (w : InWork) : Change d { d with engine := { d.engine with inWork := some w } } :=
  setEngine d { d.engine with inWork := some w } rfl fun q => by cases q <;> exact Nat.le_refl _

theorem judgeFrame (q : Queue) (f : Frame) : Change d (d.judgeFrame q f) := by
  unfold Device.judgeFrame
  simp only
  split
  · split
    · exact failOutbound _ _ _
    · exact ((passCells d _ _ (by decide)).trans (setInWork _ _)).trans (bindOutbound _ _)
  · split
    · exact failInbound _ _ _ _
    · exact ((passCells d _ _ (by decide)).trans (setInWork _ _)).trans (modTunnel _ _ _)

theorem rescueTest : Change d d.rescueTest := by
  unfold Device.rescueTest
  split
  · rename_i m _
    exact ite (fun _ => (setEngine d { d.engine with mode := .rescue m 0 } rfl
      fun q => by cases q <;> exact Nat.le_refl _).trans (give _ _ _)) fun _ => refl d
  · exact refl d

theorem takeOne : Change d d.takeOne := by
  unfold Device.takeOne
  split
  · rename_i f rest h
    refine trans (setEngineDue d { d.engine with control := rest } true rfl fun q => ?_) (judgeFrame _ _ _)
    cases q
    · show rest.length ≤ d.engine.control.length
      rw [h]; exact Nat.le_succ _
    · exact Nat.le_refl _
    · exact Nat.le_refl _
  · simp only
    split
    · rename_i f rest h
      refine trans ((rescueTest d).trans (setEngine _ _ ?_ fun q => ?_)) (judgeFrame _ _ _)
      · rw [Engine.marks_afterTake]
        generalize d.rescueTest.engine.choice = c
        cases c <;> rfl
      · rw [Engine.queue_afterTake]
        revert h
        generalize d.rescueTest.engine.choice = c
        intro h
        cases q <;> cases c <;> first
          | exact Nat.le_refl _
          | (refine Nat.le_trans (Nat.le_succ rest.length) (Nat.le_of_eq ?_)
             exact (congrArg List.length h).symm)
    · exact rescueTest d

theorem settleFor (n : Nat) : ∀ d : Device, Change d (Machine.settleFor n d) := by
  induction n with
  | zero => exact refl
  | succ n ih =>
    intro d
    unfold Machine.settleFor
    exact ite (fun _ => (buildAttempt d).trans (ih _)) fun _ =>
      ite (fun _ => (takeOne d).trans (ih _)) fun _ => setDue d false

theorem settle : Change d d.settle := settleFor _ d

theorem finish : Change d d.finish := ((settle d).trans (offerFlags _)).trans (closeEvent _)

theorem layWire (f : Frame) (h : Header) (e : Nat) : Change d (d.layWire f h e) where
  store := fun k => k.lay _ _

theorem handOver (f : Frame) (k : FrameKind) (n m : Nat) (p : Producer) : Change d (d.handOver f k n m p) := by
  unfold Device.handOver
  exact ite (fun _ => freeCells _ _) fun _ => (passCells d _ _ (by decide)).trans (pushTraffic _ _)

theorem announceSent (f : Frame) (k : FrameKind) (n m : Nat) : Change d (d.announceSent f k n m) := by
  unfold Device.announceSent
  split
  · exact ite (fun _ => freeCells _ _) fun _ => (passCells d _ _ (by decide)).trans (answerDeferred _ _ _ _ _ _ _)
  · exact ite (fun _ => (freeCells _ _).trans (placeFreed _ _))
      fun _ => (handOver d _ _ _ _ _).trans (answerDeferred _ _ _ _ _ _ _)
  · exact (handOver d _ _ _ _ _).trans (keepaliveSent _ _)
  · simp only
    split
    · exact (handOver d _ _ _ _ _).trans (proofReport _ _ _)
    · exact handOver d _ _ _ _ _

theorem completeOutbound (w : InWork) (k : FrameKind) : Change d (d.completeOutbound w k) := by
  unfold Device.completeOutbound
  exact (((((((layWire d _ _ _).trans (inWorkNone _)).trans (releaseKey _ _ _)).trans (announceSent _ _ _ _ _)).trans
    (outboundSent _ _)).trans (give _ _ _)).trans (uncount _ _)).trans (endClosing _ _)

/-- A payload laid in a frame's cells, and the cells given to a master. -/
theorem layPass (cells : List Nat) (bs : List Byte) (o : Owner) :
    Change d { d with store := (d.store.lay cells bs).pass (.done o) cells } where
  store := fun k => (k.lay _ _).pass _ _ (by cases o <;> decide)

theorem keyRoom_of_dialogueRoom {d : Device} (h : d.dialogueRoom = true) : d.keyRoom = true := by
  have h : d.key.notices.length + d.waitingFlags.length < 64 := of_decide_eq_true h
  exact decide_eq_true (Nat.lt_of_le_of_lt (Nat.le_add_right _ _) h)

theorem endAccepted (f : Frame) (h : Header) (bs : List Byte) : Change d (d.endAccepted f h bs) := by
  unfold Device.endAccepted
  split
  · exact (freeCells _ _).trans (answerInbound _ _ _ _)
  · exact ((handEcho _ _ _ _).trans (freeCells _ _)).trans (answerInbound _ _ _ _)
  · exact ite (fun _ => freeCells _ _) fun _ =>
      ite (fun r => ((layPass d f.cells bs .key).trans (pushKey _ _ (keyRoom_of_dialogueRoom r))).trans (answerInbound _ _ _ _)) fun _ =>
        ((freeCells _ _).trans (answerInbound _ _ _ _)).trans (give _ _ _)
  · exact ite (fun _ => freeCells _ _) fun _ => (layPass d f.cells bs .traffic).trans (answerInbound _ _ _ _)
  · exact ite (fun _ => freeCells _ _) fun _ => (layPass d f.cells bs .traffic).trans (answerInbound _ _ _ _)
  · exact ite (fun _ => freeCells _ _) fun _ => (layPass d f.cells bs .traffic).trans (answerInbound _ _ _ _)

theorem judgeInbound (w : InWork) : Change d (d.judgeInbound w) := by
  unfold Device.judgeInbound
  simp only
  refine ite (fun _ => failInbound _ _ _ _) fun _ => ?_
  split
  · exact failInbound _ _ _ _
  · exact (((((modKeyOf d _ _ _).trans (followTest _ _ _)).trans (endAccepted _ _ _ _)).trans
      (authenticated _ _)).trans (give _ _ _)).trans (uncount _ _)

theorem completeInbound (w : InWork) : Change d (d.completeInbound w) := by
  unfold Device.completeInbound
  exact (((judgeInbound d w).trans (inWorkNone _)).trans (releaseKey _ _ _)).trans (endClosing _ _)

/-- The end of an inbound completion leaves what the end of any event leaves, the key port's notices in an order of
their own. -/
theorem finishInbound (before : Nat) : Change d (d.finishInbound before) := by
  obtain ⟨ns, hp, h⟩ := d.finishInbound_notices before
  rw [h]
  refine (finish d).trans ?_
  generalize d.finish = e at hp ⊢
  exact modPort e .key _ (Nat.le_refl _) (Nat.le_of_eq hp.length_eq)

/-! ### The port controllers -/

theorem reply (p : Port) (q : Request) (n : Nat) (r : Reply) : Change d (d.reply p q n r) := queueResponse _ _ _ _ _

theorem popRequest (p : Port) (n : Nat) : Change d (d.popRequest p n) :=
  modPort d p _ (by simp) (Nat.le_refl _)

theorem conclude (p : Port) (q : Request) (n : Nat) (x : Taken) (h : x.Keeps d) :
    Change d (d.conclude p q n x) := by
  cases x
  · exact reply _ _ _ _ _
  · exact trans h (reply _ _ _ _ _)
  · exact (trans h (reply _ _ _ _ _)).trans (finish _)
  · exact trans h (finish _)

theorem takeRequest (p : Port) (code : Nat) (own : Device → Request → Taken)
    (h : ∀ d q, (own d q).Keeps d) : Change d (d.takeRequest p code own) := by
  unfold Device.takeRequest
  split
  · exact refl d
  · split
    · exact refl d
    · simp only
      split
      · exact (popRequest d _ _).trans (conclude _ _ _ _ _ trivial)
      · exact (popRequest d _ _).trans (conclude _ _ _ _ _ (h _ _))

theorem takeUnknown (p : Port) : Change d (d.takeUnknown p) := by
  unfold Device.takeUnknown
  split
  · exact ite (fun _ => (popRequest d _ _).trans (conclude _ _ _ _ _ trivial)) fun _ => refl d
  · exact refl d

end Change

end Sys2Proof.Machine
end

