-- ==== Sys2Proof/Laws/Promotion.lean ====
section
/-! SUPPORT. What the parts of a promotion do: the record of the tunnel, the entries freed, the events given to the
bank, and nothing else. -/

namespace Sys2Proof.Machine

/-- A key store entry after one entry is set. -/
@[simp] theorem Device.entry_setEntry (d : Device) (e k : Nat) (v : KeyEntry) :
    (d.setEntry e v).keys.entry k = if k = e then v else d.keys.entry k := SMap.get_put ..

/-- Events given to the bank in turn, each with the tunnel it carries. -/
def Device.gives (d : Device) (t : Nat) (given : List EventSource) : Device :=
  given.foldl (fun d v => d.give v (some t)) d

theorem Device.gives_append (d : Device) (t : Nat) (a b : List EventSource) :
    d.gives t (a ++ b) = (d.gives t a).gives t b := List.foldl_append

theorem Device.tunnel_gives (d : Device) (t : Nat) (given : List EventSource) (u : Nat) :
    (d.gives t given).tunnel u = d.tunnel u := by
  induction given generalizing d with
  | nil => rfl
  | cons v l ih => exact ih _

/-- The bank after an event depends on the bank before it and on the tunnel's profile and whether it is EMPTY. -/
theorem Device.bank_give_congr {d e : Device} {t : Nat} (v : EventSource) (hb : d.bank = e.bank)
    (hs : (d.tunnel t).state = .empty ↔ (e.tunnel t).state = .empty)
    (hp : (d.tunnel t).profile = (e.tunnel t).profile) : (d.give v (some t)).bank = (e.give v (some t)).bank := by
  unfold Device.give
  simp only [hb]
  congr 1; funext m; congr 1
  unfold Device.passes
  cases m.filter <;> simp [hs, hp]

theorem Device.bank_gives_congr {d e : Device} {t : Nat} (given : List EventSource) (hb : d.bank = e.bank)
    (hs : (d.tunnel t).state = .empty ↔ (e.tunnel t).state = .empty)
    (hp : (d.tunnel t).profile = (e.tunnel t).profile) : (d.gives t given).bank = (e.gives t given).bank := by
  induction given generalizing d e with
  | nil => exact hb
  | cons v l ih => exact ih (Device.bank_give_congr v hb hs hp) hs hp

/-- One part is another but for the record of one tunnel, the key store entries that are freed and the events that are
given to the bank. -/
structure Device.KeyMove (d e : Device) (t : Nat) (x : Tunnel) (freed : List Nat) (given : List EventSource) :
    Prop where
  record : e.tunnel t = x
  others : ∀ u, u ≠ t → e.tunnel u = d.tunnel u
  entries : ∀ k, e.keys.entry k = if k ∈ freed then .free else d.keys.entry k
  bank : e.bank = (d.gives t given).bank
  state : x.state = .empty ↔ (d.tunnel t).state = .empty
  profile : x.profile = (d.tunnel t).profile
  rest : { e with tunnels := d.tunnels, keys := { e.keys with entries := d.keys.entries }, bank := d.bank } = d

namespace Device.KeyMove

variable {d e f : Device} {t : Nat} {x y : Tunnel} {a b : List Nat} {g h : List EventSource}

theorem refl (d : Device) (t : Nat) : KeyMove d d t (d.tunnel t) [] [] :=
  ⟨rfl, fun _ _ => rfl, fun _ => by simp, rfl, Iff.rfl, rfl, rfl⟩

theorem trans (m : KeyMove d e t x a g) (n : KeyMove e f t y b h) : KeyMove d f t y (a ++ b) (g ++ h) where
  record := n.record
  others u hu := (n.others u hu).trans (m.others u hu)
  entries k := by
    rw [n.entries, m.entries]
    by_cases hb : k ∈ b <;> by_cases ha : k ∈ a <;> simp [ha, hb]
  bank := by
    have hs : (e.tunnel t).state = .empty ↔ ((d.gives t g).tunnel t).state = .empty := by
      rw [m.record, tunnel_gives]; exact m.state
    have hp : (e.tunnel t).profile = ((d.gives t g).tunnel t).profile := by
      rw [m.record, tunnel_gives]; exact m.profile
    rw [n.bank, gives_append]
    exact bank_gives_congr h m.bank hs hp
  state := by rw [n.state, m.record]; exact m.state
  profile := by rw [n.profile, m.record]; exact m.profile
  rest := by
    have hn := congrArg (fun z : Device =>
      { z with tunnels := d.tunnels, keys := { z.keys with entries := d.keys.entries }, bank := d.bank }) n.rest
    exact hn.trans m.rest

/-- A change of the tunnel's record that keeps its profile and whether it is EMPTY. -/
theorem modTunnel {c : Tunnel → Tunnel} (hc : c (d.tunnel t) = x) (hs : x.state = .empty ↔ (d.tunnel t).state = .empty)
    (hp : x.profile = (d.tunnel t).profile) : KeyMove d (d.modTunnel t c) t x [] [] :=
  ⟨by simp [hc], fun u hu => by simp [hu], fun _ => by simp, rfl, hs, hp, rfl⟩

theorem free (d : Device) (t entry : Nat) : KeyMove d (d.setEntry entry .free) t (d.tunnel t) [entry] [] :=
  ⟨rfl, fun _ _ => rfl, fun _ => by simp, rfl, Iff.rfl, rfl, rfl⟩

theorem give (d : Device) (t : Nat) (v : EventSource) : KeyMove d (d.give v (some t)) t (d.tunnel t) [] [v] :=
  ⟨rfl, fun _ _ => rfl, fun _ => by simp, rfl, Iff.rfl, rfl, rfl⟩

/-- The clock and the profile that the tunnel names stand. -/
theorem clock_eq (m : KeyMove d e t x a g) : e.clock = d.clock := by
  have h := congrArg Device.clock m.rest
  exact h

theorem profileOf_eq (m : KeyMove d e t x a g) : e.profileOf t = d.profileOf t := by
  have hp := congrArg Device.profiles m.rest
  have hp : e.profiles = d.profiles := hp
  unfold Device.profileOf Device.profileAt
  rw [m.record, m.profile, hp]

/-- A key dropped from its slot. -/
theorem dropKey {s : Slot} {k : KeyRecord} (hk : (d.tunnel t).key? s = some k) :
    KeyMove d (d.dropKey t s) t ((d.tunnel t).dropKey s) [k.entry] [] := by
  unfold Device.dropKey
  rw [hk]
  exact (free d t k.entry).trans (modTunnel rfl (by cases s <;> exact Iff.rfl) (by cases s <;> rfl))

/-- A cause of retirement: the key goes, or is marked where it is bound (R69). -/
theorem retireKey {s : Slot} {k : KeyRecord} (hk : (d.tunnel t).key? s = some k) :
    KeyMove d (d.retireKey t s) t
      (if k.bound then (d.tunnel t).modKey s fun k => { k with retirePending := true } else (d.tunnel t).dropKey s)
      (if k.bound then [] else [k.entry]) [] := by
  unfold Device.retireKey
  rw [hk]
  simp only
  split
  · exact modTunnel rfl (by cases s <;> exact Iff.rfl) (by cases s <;> rfl)
  · exact dropKey hk

/-- Step 1 of a promotion, on a PREVIOUS key (R73). -/
theorem earlyRetire {k : KeyRecord} (hk : (d.tunnel t).previous = some k) :
    KeyMove d (d.earlyRetire t).1 t
      { d.tunnel t with previous := if k.bound then some { k with retirePending := true } else none }
      (if k.bound then [] else [k.entry]) [.earlyRetires] := by
  have m := (retireKey (s := .previous) hk).trans (give _ t .earlyRetires)
  unfold Device.earlyRetire
  rw [hk]
  simp only
  have r := (retireKey (s := .previous) hk).record
  rw [r, List.append_nil, List.nil_append] at m
  split at m <;> rename_i hb <;> simpa [hb, Tunnel.modKey, Tunnel.dropKey, hk] using m

/-- A CURRENT key demoted to PREVIOUS (R73). -/
theorem demote (d : Device) (t : Nat) (k : KeyRecord) (grace : Option Clock) (pending : Bool) :
    KeyMove d (d.demote t k grace pending) t
      { d.tunnel t with
        current := none
        previous := some { k with
          graceDeadline := grace, softDeadline := none, hardDeadline := none
          retirePending := k.retirePending || pending } } [] [] := modTunnel rfl Iff.rfl rfl

/-- The CURRENT key reached by a cause of retirement. -/
theorem retireCurrent {c : CurrentKey} (hc : (d.tunnel t).current = some c) :
    KeyMove d (d.retireKey t .current) t
      { d.tunnel t with
        current := if c.key.bound then some { c with key := { c.key with retirePending := true } } else none }
      (if c.key.bound then [] else [c.key.entry]) [] := by
  have hk : (d.tunnel t).key? .current = some c.key := by simp [Tunnel.key?, hc]
  have m := retireKey hk
  by_cases hb : c.key.bound = true <;> simpa [hb, Tunnel.modKey, Tunnel.dropKey, hc] using m

end Device.KeyMove

/-! ### Step 2 of a promotion, by what the slots hold (R73, R74) -/

/-- The PREVIOUS slot is held: the CURRENT key is retired early. -/
theorem Device.demotion_held {d : Device} {t : Nat} {q : KeyRecord} {c : CurrentKey}
    (hq : (d.tunnel t).previous = some q) (hc : (d.tunnel t).current = some c) :
    d.demotion t =
      (if c.state = .expired then d.retireKey t .current else (d.retireKey t .current).give .earlyRetires (some t),
        ⟨none, [c.key.epoch]⟩) := by
  unfold Device.demotion
  simp only [hc, hq, Option.isSome_some, if_true]

/-- The PREVIOUS slot is ABSENT and CURRENT is ACTIVE or SPENT: it is demoted. -/
theorem Device.demotion_grace {d : Device} {t : Nat} {c : CurrentKey} (hq : (d.tunnel t).previous = none)
    (hc : (d.tunnel t).current = some c) (hs : c.state ≠ .expired) :
    d.demotion t =
      (d.demote t c.key (some (d.after (millis (d.profileOf t).grace))) false, ⟨some c.key.epoch, []⟩) := by
  unfold Device.demotion
  simp only [hc, hq, Option.isSome_none]
  cases h : c.state <;> simp_all

/-- The PREVIOUS slot is ABSENT and CURRENT is EXPIRED: it is retired, or moved where it is bound. -/
theorem Device.demotion_expired {d : Device} {t : Nat} {c : CurrentKey} (hq : (d.tunnel t).previous = none)
    (hc : (d.tunnel t).current = some c) (hs : c.state = .expired) :
    d.demotion t =
      if c.key.bound then (d.demote t c.key none true, ⟨some c.key.epoch, [c.key.epoch]⟩)
      else (d.retireKey t .current, ⟨none, [c.key.epoch]⟩) := by
  unfold Device.demotion
  simp only [hc, hq, Option.isSome_none, hs]
  rfl

/-- CURRENT is ABSENT: nothing is demoted. -/
theorem Device.demotion_absent {d : Device} {t : Nat} (hc : (d.tunnel t).current = none) :
    d.demotion t = (d, ⟨none, []⟩) := by
  unfold Device.demotion
  simp only [hc]

/-- Steps 3 to 5: the NEXT key becomes CURRENT, and a PROVISIONED tunnel enters service (R37, R73, R120). -/
theorem Device.KeyMove.advanceKey (d : Device) (t : Nat) (k : KeyRecord) :
    let x := d.tunnel t
    let p := d.profileOf t
    Device.KeyMove d (d.advanceKey t k) t
      { x with
        next := none
        current := some ⟨.active, { k with
          outCount := 0, ageStart := some d.clock, softDeadline := some (d.after (p.softAge * 1000000))
          hardDeadline := some (d.after (p.hardAge * 1000000)) }⟩
        outCauses := ⟨x.outCauses.ops, false, false⟩
        state := if x.state = .provisioned then .inService else x.state
        condition := if x.state = .provisioned then { x.condition with
            silenceDeadline := some (d.after (p.silence * 1000000))
            keepaliveDeadline := if p.keepalive = 0 then none else some (d.after (p.keepalive * 1000000)) }
          else x.condition } [] [] := by
  intro x p
  unfold Device.advanceKey
  refine Device.KeyMove.modTunnel ?_ ?_ rfl
  · by_cases h : x.state = .provisioned
    · rw [if_pos h, if_pos h, if_pos h]; rfl
    · rw [if_neg h, if_neg h, if_neg h]; rfl
  · show (if x.state = .provisioned then TunnelState.inService else x.state) = .empty ↔ x.state = .empty
    split <;> simp_all

end Sys2Proof.Machine
end

