-- ==== Sys2Proof/Laws/Settling.lean ====
section
/-! SUPPORT. An event settles: each take removes a frame, each attempt uses up what was freed for it, and proofs start
from the retry queue only, so that the fuel of `settle` is never spent (R102, R144; log 35); and the flags that are left
unreported after their offer are those for which the key port's notice queue has no place (R91). -/

namespace Sys2Proof.Machine

/-- The frames that wait. -/
def Device.frames (d : Device) : Nat :=
  d.engine.control.length + d.engine.settle.length + d.engine.bulk.length

/-- The proofs that can come to wait for room in the event: the one that does, and those of the retry queue. -/
def Device.starts (d : Device) : Nat := d.proofs.retry.length + bit d.proofWaits

/-- No frame has been placed but for a proof that can no longer come to wait. -/
structure Calm (a b : Device) : Prop where
  work : b.frames + b.starts ≤ a.frames + a.starts := by exact Nat.le_refl _

namespace Calm

theorem refl (d : Device) : Calm d d := {}

theorem trans {a b c : Device} (h : Calm a b) (k : Calm b c) : Calm a c where
  work := Nat.le_trans k.work h.work

theorem foldl {α : Type} (f : Device → α → Device) (hf : ∀ d a, Calm d (f d a)) (xs : List α) :
    ∀ d, Calm d (xs.foldl f d) := by
  induction xs with
  | nil => exact refl
  | cons x xs ih => exact fun d => (hf d x).trans (ih _)

theorem ite {c : Prop} [Decidable c] {a x y : Device} (hx : Calm a x) (hy : Calm a y) :
    Calm a (if c then x else y) := by
  split
  · exact hx
  · exact hy

variable (d : Device)

theorem modTunnel (t : Nat) (f : Tunnel → Tunnel) : Calm d (d.modTunnel t f) := {}

theorem pushNotice (p : Port) (n : Notice) : Calm d (d.pushNotice p n) := by cases p <;> exact {}

theorem answerDeferred (p : Port) (tag : BitVec 16) (c : Nat) (st : Status) (o : Result) (b : Body) :
    Calm d (d.answerDeferred p tag c st o b) := by cases p <;> exact {}

theorem offerTunnel (t : Nat) (k : TunnelFault) : Calm d (d.offerTunnel t k) := by
  unfold Device.offerTunnel
  split
  · exact ite ((modTunnel d _ _).trans (pushNotice _ _ _)) (refl d)
  · exact refl d

theorem latchTunnel (t : Nat) (k : TunnelFault) (n : Nat) (b : Bool) : Calm d (d.latchTunnel t k n b) := by
  unfold Device.latchTunnel
  split
  · exact modTunnel _ _ _
  · exact ((modTunnel d _ _).trans (offerTunnel _ _ _)).trans {}

theorem deviceFault (k : DeviceFault) (n : Nat) : Calm d (d.deviceFault k n) := by
  have offer : ∀ e : Device, Calm e (e.offerDevice k) := by
    intro e
    unfold Device.offerDevice
    split
    · exact ite (trans (b := { e with faults := e.faults.set k _ }) {} (pushNotice _ _ _)) (refl e)
    · exact refl e
  unfold Device.deviceFault
  split
  · exact {}
  · exact (trans (b := { d with faults := d.faults.set k _ }) {} (offer _)).trans {}

/-- An attempt of a waiting proof places a frame and ends its wait, or changes neither. -/
theorem buildAttempt : Calm d d.buildAttempt := by
  have idle : Calm d { d with buildDue := false } := {}
  unfold Device.buildAttempt
  simp only
  split
  · rename_i r hr
    have hr : d.proofs.running = some r := hr
    split
    · rename_i hp
      split
      · refine ⟨?_⟩
        have hw : d.proofWaits = true := by
          unfold Device.proofWaits
          rw [hr]
          exact decide_eq_true hp
        have hs : d.starts = d.proofs.retry.length + 1 := by
          unfold Device.starts
          rw [hw]
          rfl
        rw [hs]
        show (d.engine.control ++ [_]).length + d.engine.settle.length + d.engine.bulk.length
            + (d.proofs.retry.length + 0) ≤ d.engine.control.length + d.engine.settle.length + d.engine.bulk.length + _
        rw [List.length_append]
        show d.engine.control.length + 1 + _ + _ + _ ≤ _
        omega
      · exact idle.trans (deviceFault _ _ _)
      · exact idle
    · exact idle
  · exact idle

/-- The retry start test turns a proof of the retry queue into one that waits, or into its frame. -/
theorem retryStartTest : Calm d d.retryStartTest := by
  unfold Device.retryStartTest
  split
  · rename_i t rest hn hr
    refine ite ?_ (refl d)
    unfold Device.startProof
    refine trans ⟨?_⟩ (buildAttempt _)
    refine Nat.add_le_add_left ?_ d.frames
    show rest.length + 1 ≤ d.proofs.retry.length + _
    rw [hr]
    exact Nat.le_add_right _ _
  · exact refl d

/-- The running proof removed. -/
theorem proofGone (u : ProofUnit) (h : u.retry = d.proofs.retry) (hr : u.running = none) :
    Calm d { d with proofs := u } where
  work := by
    have hw : ({ d with proofs := u } : Device).proofWaits = false := by
      show (match u.running with
        | some r => decide (r.phase = .waitCell)
        | none => false) = false
      rw [hr]
    refine Nat.add_le_add_left ?_ d.frames
    show u.retry.length + bit ({ d with proofs := u } : Device).proofWaits ≤ _
    rw [hw, h]
    exact Nat.le_add_right _ _

theorem endProof (x : ProofResult) (c : Option AbortCause) : Calm d (d.endProof x c) := by
  unfold Device.endProof
  split
  · exact refl d
  · rename_i r _
    simp only
    refine trans ?_ (retryStartTest _)
    have fault : ∀ e : Device, Calm e (e.proofFault r x c) := by
      intro e
      unfold Device.proofFault
      split
      · exact ite (latchTunnel _ _ _ _ _) (refl e)
      · exact ite (latchTunnel _ _ _ _ _) (refl e)
    have result : ∀ e : Device, Calm e (if r.purpose = .retry then e.retryResult r.tunnel x c else e) := by
      intro e
      unfold Device.retryResult
      exact ite (ite (modTunnel _ _ _) (ite (modTunnel _ _ _) (refl e))) (refl e)
    have gone := proofGone d { d.proofs with
      running := none
      last := some ⟨r.tunnel, r.purpose, r.mode, x, r.completed, r.sent, r.misses.sum, r.strays, d.clock⟩ } rfl rfl
    have ended := (gone.trans (modTunnel _ r.tunnel fun x => { x with underProof := false })).trans (result _)
    exact (ended.trans (pushNotice _ _ _)).trans (fault _)

theorem abortProof (t : Nat) (c : AbortCause) (f : Purpose → Bool) : Calm d (d.abortProof t c f) := by
  unfold Device.abortProof
  split
  · exact ite (endProof _ _ _) (refl d)
  · exact refl d

theorem proofReport (s : BitVec 32) (o : Result) : Calm d (d.proofReport s o) := by
  unfold Device.proofReport
  split
  · rename_i r _
    refine ite ?_ (refl d)
    split
    · exact ⟨Nat.add_le_add_left (Nat.add_le_add_left (Nat.zero_le _) _) d.frames⟩
    · exact endProof _ _ _
    · exact endProof _ _ _
    · exact refl d
  · exact refl d

theorem addKeyCause (t : Nat) (c : KeyCause) : Calm d (d.addKeyCause t c) := by
  unfold Device.addKeyCause
  exact ite ((modTunnel _ _ _).trans (abortProof _ _ _ _)) (modTunnel _ _ _)

theorem bindOutbound (t : Nat) : Calm d (d.bindOutbound t) := by
  unfold Device.bindOutbound
  split
  · exact refl d
  · exact ite ((modTunnel _ _ _).trans (addKeyCause _ _ _)) (modTunnel _ _ _)

theorem failOutbound (f : Frame) (o : Result) : Calm d (d.failOutbound f o) := by
  have k : Calm d ((d.uncount f.tunnel).placeFreed f) := {}
  have kf : Calm d (((d.uncount f.tunnel).placeFreed f).freeCells f.cells) := {}
  have kp : ∀ s, Calm d (((d.uncount f.tunnel).placeFreed f).passCells f.cells s) := fun _ => {}
  unfold Device.failOutbound
  simp only
  split
  · exact ite kf ((kp _).trans (answerDeferred _ _ _ _ _ _ _))
  · exact ite kf ((kp _).trans (answerDeferred _ _ _ _ _ _ _))
  · exact kf.trans (b := ((d.uncount f.tunnel).placeFreed f).freeCells f.cells) {}
  · split
    · exact kf.trans (proofReport _ _ _)
    · exact kf

theorem failInbound (f : Frame) (o : Result) (b : Body) : Calm d (d.failInbound f o b) := by
  have report : ∀ e : Device, Calm e (e.reportInbound f.tunnel o) := by
    intro e
    unfold Device.reportInbound
    have h : Calm e (match (inboundReport o).1 with
        | some k => e.countOutcome f.tunnel k
        | none => e) := by
      split
      · exact {}
      · exact refl e
    simp only
    split
    · exact h.trans {}
    · exact h
  have answer : ∀ e : Device, Calm e (e.answerInbound f o b) := by
    intro e
    unfold Device.answerInbound
    exact ite (refl e) (answerDeferred _ _ _ _ _ _ _)
  unfold Device.failInbound
  exact ((trans (b := (d.uncount f.tunnel).freeCells f.cells) {} (answer _)).trans (report _))

theorem judgeFrame (q : Queue) (f : Frame) : Calm d (d.judgeFrame q f) := by
  unfold Device.judgeFrame
  simp only
  split
  · split
    · exact failOutbound _ _ _
    · exact trans {} (bindOutbound _ _)
  · split
    · exact failInbound _ _ _ _
    · exact {}

theorem rescueTest : Calm d d.rescueTest := by
  unfold Device.rescueTest
  split
  · exact ite {} (refl d)
  · exact refl d

end Calm

/-! ### Takes and attempts -/

theorem Device.hasFrames_iff (d : Device) : d.engine.hasFrames = true ↔ 0 < d.frames := by
  unfold Engine.hasFrames Device.frames
  cases d.engine.control <;> cases d.engine.settle <;> cases d.engine.bulk <;> grind

/-- A choice between SETTLE and BULK falls on one in which frames wait, where frames wait in one of them. -/
theorem Engine.queue_choice_ne_nil (e : Engine) (h : e.settle ≠ [] ∨ e.bulk ≠ []) :
    e.choice ≠ .control ∧ e.queue e.choice ≠ [] := by
  have other : ∀ q : Queue, q ≠ .control → e.orOther q ≠ .control ∧ e.queue (e.orOther q) ≠ [] := by
    intro q hq
    cases q
    · exact absurd rfl hq
    · unfold Engine.orOther
      cases hs : e.settle with
      | nil => exact ⟨by simp, by simpa [Engine.queue, hs] using h⟩
      | cons f fs => exact ⟨by simp, by simp [Engine.queue, hs]⟩
    · unfold Engine.orOther
      cases hb : e.bulk with
      | nil => exact ⟨by simp, by simpa [Engine.queue, hb] using h⟩
      | cons f fs => exact ⟨by simp, by simp [Engine.queue, hb]⟩
  unfold Engine.choice
  split
  · exact other _ (by cases e.turn <;> simp [Turn.queue])
  · exact other _ (by simp)
  · exact other _ (by simp)

/-- A take removes one frame. -/
theorem Device.takeOne_calm (d : Device) (h : d.engine.hasFrames = true) :
    d.takeOne.frames + d.takeOne.starts + 1 ≤ d.frames + d.starts := by
  unfold Device.takeOne
  split
  · rename_i f rest hc
    have k := (Calm.judgeFrame { d with engine := { d.engine with control := rest }, buildDue := true } .control f).work
    refine Nat.le_trans (Nat.succ_le_succ k) ?_
    show rest.length + d.engine.settle.length + d.engine.bulk.length + d.starts + 1
      ≤ d.engine.control.length + d.engine.settle.length + d.engine.bulk.length + d.starts
    rw [hc, List.length_cons]
    omega
  · rename_i hc
    simp only
    have r := (Calm.rescueTest d).work
    have q : d.rescueTest.engine.control = d.engine.control ∧ d.rescueTest.engine.settle = d.engine.settle
        ∧ d.rescueTest.engine.bulk = d.engine.bulk := by
      unfold Device.rescueTest
      split
      · split <;> exact ⟨rfl, rfl, rfl⟩
      · exact ⟨rfl, rfl, rfl⟩
    revert r q
    generalize d.rescueTest = e
    intro r q
    have some_ : e.engine.settle ≠ [] ∨ e.engine.bulk ≠ [] := by
      rw [q.2.1, q.2.2]
      unfold Engine.hasFrames at h
      rw [hc] at h
      cases hs : d.engine.settle <;> cases hb : d.engine.bulk <;> simp_all
    obtain ⟨c1, c2⟩ := e.engine.queue_choice_ne_nil some_
    revert c1 c2
    generalize e.engine.choice = c
    intro c1 c2
    split
    · rename_i f rest hq
      have k := (Calm.judgeFrame { e with engine := (e.engine.setQueue c rest).afterTake c } c f).work
      refine Nat.le_trans (Nat.succ_le_succ k) (Nat.le_trans ?_ r)
      obtain ⟨m, t, ha⟩ := (e.engine.setQueue c rest).afterTake_only c
      rw [ha]
      show _ + _ + e.starts + 1 ≤ _ + _ + e.starts
      cases c
      · exact absurd rfl c1
      · have hq : e.engine.settle = f :: rest := hq
        show e.engine.control.length + rest.length + e.engine.bulk.length + e.starts + 1
          ≤ e.engine.control.length + e.engine.settle.length + e.engine.bulk.length + e.starts
        rw [hq, List.length_cons]
        omega
      · have hq : e.engine.bulk = f :: rest := hq
        show e.engine.control.length + e.engine.settle.length + rest.length + e.starts + 1
          ≤ e.engine.control.length + e.engine.settle.length + e.engine.bulk.length + e.starts
        rw [hq, List.length_cons]
        omega
    · rename_i hq
      exact absurd hq c2

/-- After an attempt nothing is left that was freed for it. -/
theorem Device.buildDue_buildAttempt (d : Device) : d.buildAttempt.buildDue = false := by
  unfold Device.buildAttempt
  simp only
  split
  · split
    · split
      · rfl
      · unfold Device.deviceFault
        split
        · rfl
        · unfold Device.offerDevice
          simp only
          split
          · split <;> rfl
          · rfl
      · rfl
    · rfl
  · rfl

/-- What is left to be done in an event, counted so that every take and every attempt lowers it. -/
def Device.toSettle (d : Device) : Nat := 2 * (d.frames + d.starts) + bit d.buildDue

theorem Device.toSettle_buildAttempt (d : Device) (h : d.buildDue = true) : d.buildAttempt.toSettle < d.toSettle := by
  have k := (Calm.buildAttempt d).work
  have : bit true = 1 := rfl
  have : bit false = 0 := rfl
  unfold Device.toSettle
  rw [h, d.buildDue_buildAttempt]
  omega

theorem Device.toSettle_takeOne (d : Device) (h : d.engine.hasFrames = true) : d.takeOne.toSettle < d.toSettle := by
  have k := d.takeOne_calm h
  have : bit d.takeOne.buildDue ≤ 1 := by cases d.takeOne.buildDue <;> simp [bit]
  unfold Device.toSettle
  omega

theorem Device.toSettle_lt_fuel (d : Device) : d.toSettle < d.settleFuel := by
  have h1 : bit d.buildDue ≤ 1 := by cases d.buildDue <;> simp [bit]
  have h2 : bit d.proofWaits ≤ 1 := by cases d.proofWaits <;> simp [bit]
  unfold Device.toSettle Device.settleFuel Device.frames Device.starts
  omega

theorem settleFor_settles (n : Nat) : ∀ d : Device, d.toSettle < n →
    (settleFor n d).buildDue = false
      ∧ ((settleFor n d).engine.inWork = none → (settleFor n d).engine.hasFrames = false) := by
  induction n with
  | zero => exact fun d h => absurd h (Nat.not_lt_zero _)
  | succ n ih =>
    intro d h
    unfold settleFor
    split
    · rename_i b
      exact ih _ (Nat.lt_of_lt_of_le (d.toSettle_buildAttempt b.1) (Nat.le_of_lt_succ h))
    · split
      · rename_i c
        exact ih _ (Nat.lt_of_lt_of_le (d.toSettle_takeOne c.2) (Nat.le_of_lt_succ h))
      · rename_i c
        refine ⟨rfl, fun hn => ?_⟩
        show d.engine.hasFrames = false
        have hn : d.engine.inWork = none := hn
        cases hf : d.engine.hasFrames
        · rfl
        · exact absurd ⟨hn, hf⟩ c

/-- More fuel than is left to be done changes nothing. -/
theorem settleFor_enough (n : Nat) : ∀ (m : Nat) (d : Device), d.toSettle < n → d.toSettle < m →
    settleFor n d = settleFor m d := by
  induction n with
  | zero => exact fun m d h => absurd h (Nat.not_lt_zero _)
  | succ n ih =>
    intro m d h k
    cases m with
    | zero => exact absurd k (Nat.not_lt_zero _)
    | succ m =>
      unfold settleFor
      split
      · rename_i b
        have := d.toSettle_buildAttempt b.1
        exact ih _ _ (Nat.lt_of_lt_of_le this (Nat.le_of_lt_succ h)) (Nat.lt_of_lt_of_le this (Nat.le_of_lt_succ k))
      · split
        · rename_i c
          have := d.toSettle_takeOne c.2
          exact ih _ _ (Nat.lt_of_lt_of_le this (Nat.le_of_lt_succ h)) (Nat.lt_of_lt_of_le this (Nat.le_of_lt_succ k))
        · rfl

/-- An event settles: the fuel suffices (log 35). -/
theorem Device.settle_settles (d : Device) :
    d.settle.buildDue = false ∧ (d.settle.engine.inWork = none → d.settle.engine.hasFrames = false) :=
  settleFor_settles _ d d.toSettle_lt_fuel

/-! ### The offer of flags -/

/-- A flag of a key in a slot of a tunnel stands unreported. -/
def Device.flagWaits (d : Device) (x : Nat × Slot × KeyFlag) : Bool :=
  ((d.tunnel x.1).key? x.2.1).any (·.waits x.2.2)

theorem Device.mem_waitingFlags (d : Device) (x : Nat × Slot × KeyFlag) :
    x ∈ d.waitingFlags ↔ x.1 < 480 ∧ (x.2.1 = .current ∨ x.2.1 = .previous) ∧ d.flagWaits x = true := by
  obtain ⟨t, s, f⟩ := x
  have slot : ∀ u (r : Slot), ((t, s, f) ∈ (match (d.tunnel u).key? r with
      | some k => ([KeyFlag.expired, .renewal, .followed].filter k.waits).map fun f => (u, r, f)
      | none => [])) ↔ t = u ∧ s = r ∧ d.flagWaits (t, s, f) = true := by
    intro u r
    unfold Device.flagWaits
    split
    · rename_i k hk
      simp only [List.mem_map, List.mem_filter, Prod.mk.injEq]
      constructor
      · rintro ⟨g, ⟨-, hw⟩, rfl, rfl, rfl⟩
        exact ⟨rfl, rfl, by rw [hk]; exact hw⟩
      · rintro ⟨rfl, rfl, hw⟩
        rw [hk] at hw
        exact ⟨f, ⟨by cases f <;> simp, hw⟩, rfl, rfl, rfl⟩
    · rename_i hk
      refine ⟨fun h => absurd h (by simp), ?_⟩
      rintro ⟨rfl, rfl, hw⟩
      rw [hk] at hw
      cases hw
  unfold Device.waitingFlags Device.flagsOf
  simp only [List.mem_flatMap, List.mem_range, List.mem_cons, List.not_mem_nil, or_false]
  constructor
  · rintro ⟨u, hu, r, hr, hm⟩
    obtain ⟨rfl, rfl, hw⟩ := (slot u r).mp hm
    exact ⟨hu, hr, hw⟩
  · rintro ⟨hu, hr, hw⟩
    exact ⟨t, hu, s, hr, (slot t s).mpr ⟨rfl, rfl, hw⟩⟩

theorem Tunnel.key?_modKey (r : Tunnel) (s s' : Slot) (f : KeyRecord → KeyRecord) :
    (r.modKey s f).key? s' = if s' = s then (r.key? s').map f else r.key? s' := by
  cases s <;> cases s' <;> simp [Tunnel.modKey, Tunnel.key?, Function.comp_def]

theorem KeyRecord.waits_told (k : KeyRecord) (f g : KeyFlag) :
    (k.told f).waits g = (k.waits g && decide (g ≠ f)) := by
  have told : ∀ {ρ : Type} (w : Flag ρ), w.told.waits = false := by intro _ w; cases w <;> rfl
  cases f <;> cases g <;> simp [KeyRecord.told, KeyRecord.waits, told]

theorem Device.keyNotice_isSome (d : Device) (s : Slot) (k : KeyRecord) (f : KeyFlag) :
    (d.keyNotice s k f).isSome = k.waits f := by
  cases f
  · cases h : k.expired <;> simp [Device.keyNotice, KeyRecord.waits, Flag.waits, h]
  · cases h : k.renewal <;> simp [Device.keyNotice, KeyRecord.waits, Flag.waits, h]
  · cases h : k.followed <;> simp [Device.keyNotice, KeyRecord.waits, Flag.waits, h]

/-- What the offer of one flag can do: it takes no place where none is free, it makes no other flag wait, and a flag
that it finds a place for waits no more (R91). -/
theorem Device.offerFlag_spec (d : Device) (y : Nat × Slot × KeyFlag) :
    ((d.offerFlag y).keyRoom = true → d.keyRoom = true)
      ∧ (∀ x, (d.offerFlag y).flagWaits x = true → d.flagWaits x = true)
      ∧ (d.keyRoom = true → (d.offerFlag y).flagWaits y = false) := by
  unfold Device.offerFlag
  split
  · rename_i k hk
    split
    · rename_i b hb
      split
      · rename_i hr
        have told : ∀ x, ((d.modTunnel y.1 (·.modKey y.2.1 (·.told y.2.2))).pushNotice .key ⟨some y.1, d.clock, b⟩
            ).flagWaits x = (d.flagWaits x && decide (x ≠ y)) := by
          intro x
          obtain ⟨t, s, f⟩ := x
          obtain ⟨u, r, g⟩ := y
          show (((d.modTunnel u (·.modKey r (·.told g))).tunnel t).key? s).any (·.waits f) = _
          unfold Device.flagWaits
          rw [Device.tunnel_modTunnel]
          by_cases e : t = u
          · subst e
            rw [if_pos rfl, Tunnel.key?_modKey]
            by_cases e : s = r
            · subst e
              rw [if_pos rfl]
              cases ((d.tunnel t).key? s) <;> simp [KeyRecord.waits_told]
            · simp [e]
          · simp [e]
        refine ⟨fun _ => hr, fun x h => ?_, fun _ => ?_⟩
        · rw [told, Bool.and_eq_true] at h
          exact h.1
        · rw [told]
          simp
      · rename_i hr
        exact ⟨id, fun _ => id, fun h => absurd h hr⟩
    · rename_i hb
      refine ⟨id, fun _ => id, fun _ => ?_⟩
      unfold Device.flagWaits
      rw [hk]
      show k.waits y.2.2 = false
      rw [← d.keyNotice_isSome y.2.1, hb]
      rfl
  · rename_i hk
    refine ⟨id, fun _ => id, fun _ => ?_⟩
    unfold Device.flagWaits
    rw [hk]
    rfl

/-- What the offers of a list of flags can do. -/
theorem Device.offerFlag_foldl (l : List (Nat × Slot × KeyFlag)) : ∀ d : Device,
    ((l.foldl Device.offerFlag d).keyRoom = true → d.keyRoom = true)
      ∧ (∀ x, (l.foldl Device.offerFlag d).flagWaits x = true → d.flagWaits x = true)
      ∧ ((l.foldl Device.offerFlag d).keyRoom = true → ∀ x ∈ l, (l.foldl Device.offerFlag d).flagWaits x = false) := by
  induction l with
  | nil => exact fun d => ⟨id, fun _ => id, fun _ x h => absurd h (by simp)⟩
  | cons y l ih =>
    intro d
    obtain ⟨a1, a2, a3⟩ := d.offerFlag_spec y
    obtain ⟨b1, b2, b3⟩ := ih (d.offerFlag y)
    refine ⟨fun h => a1 (b1 h), fun x h => a2 x (b2 x h), fun h x hx => ?_⟩
    rcases List.mem_cons.mp hx with rfl | hx
    · cases hf : ((l.foldl Device.offerFlag (d.offerFlag x)).flagWaits x)
      · exact hf
      · have := b2 x hf
        rw [a3 (a1 (b1 h))] at this
        cases this
    · exact b3 h x hx

/-- After the offer of its flags the part has no flag that waits, or no place is free (R91). -/
theorem Device.offerFlags_offered (d : Device) :
    d.offerFlags.waitingFlags = [] ∨ 64 ≤ d.offerFlags.key.notices.length := by
  obtain ⟨-, h2, h3⟩ := Device.offerFlag_foldl d.waitingFlags d
  cases hr : d.offerFlags.keyRoom
  · right
    exact Nat.le_of_not_lt (of_decide_eq_false hr)
  · left
    refine List.eq_nil_iff_forall_not_mem.mpr fun x hx => ?_
    obtain ⟨hu, hs, hw⟩ := (Device.mem_waitingFlags _ _).mp hx
    have hd := (Device.mem_waitingFlags d x).mpr ⟨hu, hs, h2 x hw⟩
    have hf := h3 hr x hd
    have hw : (d.waitingFlags.foldl Device.offerFlag d).flagWaits x = true := hw
    rw [hf] at hw
    cases hw

/-- The offer of a flag touches keys and the key port only. -/
theorem Device.offerFlag_kept (d : Device) (y : Nat × Slot × KeyFlag) :
    (d.offerFlag y).engine = d.engine ∧ (d.offerFlag y).proofs = d.proofs ∧ (d.offerFlag y).buildDue = d.buildDue
      ∧ (d.offerFlag y).store = d.store := by
  unfold Device.offerFlag
  split
  · split
    · split <;> exact ⟨rfl, rfl, rfl, rfl⟩
    · exact ⟨rfl, rfl, rfl, rfl⟩
  · exact ⟨rfl, rfl, rfl, rfl⟩

/-- What the offers of the flags that wait leave as it stands. -/
theorem Device.offerFlags_kept (d : Device) :
    d.offerFlags.engine = d.engine ∧ d.offerFlags.proofs = d.proofs ∧ d.offerFlags.buildDue = d.buildDue
      ∧ d.offerFlags.store = d.store := by
  have fold : ∀ (l : List (Nat × Slot × KeyFlag)) (e : Device), (l.foldl Device.offerFlag e).engine = e.engine
      ∧ (l.foldl Device.offerFlag e).proofs = e.proofs ∧ (l.foldl Device.offerFlag e).buildDue = e.buildDue
      ∧ (l.foldl Device.offerFlag e).store = e.store := by
    intro l
    induction l with
    | nil => exact fun _ => ⟨rfl, rfl, rfl, rfl⟩
    | cons y l ih =>
      intro e
      obtain ⟨h1, h2, h3, h4⟩ := e.offerFlag_kept y
      obtain ⟨k1, k2, k3, k4⟩ := ih (e.offerFlag y)
      exact ⟨k1.trans h1, k2.trans h2, k3.trans h3, k4.trans h4⟩
  exact fold _ d

/-- The end of an event leaves the engine and the cell store as they stand. -/
theorem Device.closeEvent_kept (d : Device) : d.closeEvent.engine = d.engine ∧ d.closeEvent.store = d.store := by
  unfold Device.closeEvent Device.freezeOnOverflow Device.deviceFault Device.offerDevice
  repeat' split
  all_goals exact ⟨rfl, rfl⟩

/-- An event that ends leaves the engine and the cell store as its settling did. -/
theorem Device.finish_kept (d : Device) : d.finish.engine = d.settle.engine ∧ d.finish.store = d.settle.store := by
  obtain ⟨h1, -, -, h4⟩ := d.settle.offerFlags_kept
  obtain ⟨k1, k4⟩ := d.settle.offerFlags.closeEvent_kept
  exact ⟨k1.trans h1, k4.trans h4⟩

/-- The work of an event done and its flags offered, the part is settled. -/
theorem Device.settled_settle (d : Device) : d.settle.offerFlags.Settled := by
  obtain ⟨h1, h2⟩ := d.settle_settles
  obtain ⟨k1, -, k3, -⟩ := d.settle.offerFlags_kept
  refine ⟨k3.trans h1, ?_, d.settle.offerFlags_offered⟩
  rw [k1]
  exact h2

end Sys2Proof.Machine
end

