-- ==== Sys2Proof/Laws/Taking.lean ====
section
/-! SUPPORT. What an access comes to (R171), and what the taking of a request comes to: a refusal where a common test
fails, and the request's own part where it passes them (R173). -/

namespace Sys2Proof.Machine

/-- An access to one aligned word of a port window is made. -/
theorem access_next {off : Nat} (h : off < 0x100000) (ha : off % 4 = 0) (s : State) (f : Device → Device) :
    access off s f = s.to (f s.dev) := by
  unfold access
  rw [if_neg (by omega), if_neg (by omega)]
  rfl

/-- The request that a taking takes, where the port offers it with room for its places. -/
theorem Device.Offers.takeable {d : Device} {p : Port} {q : Request} {places : Nat} (h : d.Offers p q places) :
    d.takeable p q.code places = some q := by
  obtain ⟨hr, hq, hp⟩ := h
  unfold Device.takeable Device.headRequest PortState.canReserve
  rw [hr, if_pos rfl, hq]
  exact if_pos ⟨rfl, decide_eq_true hp⟩

/-- A request taken that fails a common test is answered with the status of that test. -/
theorem Device.Offers.takeRequest_refused {d : Device} {p : Port} {q : Request} {row : CatalogueRow} {st : Status}
    (h : d.Offers p q row.places) (hr : catalogue q.code = some row) (hc : commonTests p row q = some st)
    (own : Device → Request → Taken) : d.takeRequest p q.code own = d.answered p q (Reply.refusal st) := by
  unfold Device.takeRequest Device.answered Device.respond Device.taken
  rw [hr]
  simp only [h.takeable, hc]
  rfl

/-- A request taken that passes the common tests comes to what its own part comes to. -/
theorem Device.Poses.takeRequest {d : Device} {p : Port} {q : Request} {code : Nat} (h : d.Poses p q code)
    (own : Device → Request → Taken) :
    d.takeRequest p code own =
      (d.taken p code).conclude p q (((catalogue q.code).map (·.places)).getD 1) (own (d.taken p code) q) := by
  obtain ⟨row, hr, rfl, ho, hc⟩ := h
  unfold Device.takeRequest Device.taken
  rw [hr]
  simp only [ho.takeable, hc]
  rfl

/-- A request whose own part refuses it is answered with the refusal, nothing else changed. -/
theorem Device.conclude_refuse (d : Device) (p : Port) (q : Request) (st : Status) :
    d.conclude p q (((catalogue q.code).map (·.places)).getD 1) (.refuse st) = d.respond p q (Reply.refusal st) := rfl

/-- A request answered at once, with nothing to settle. -/
theorem Device.conclude_quiet (d e : Device) (p : Port) (q : Request) (r : Reply) :
    d.conclude p q (((catalogue q.code).map (·.places)).getD 1) (.quiet e r) = e.respond p q r := rfl

/-- A request answered at once, and the event then settled. -/
theorem Device.conclude_answer (d e : Device) (p : Port) (q : Request) (r : Reply) :
    d.conclude p q (((catalogue q.code).map (·.places)).getD 1) (.answer e r) = (e.respond p q r).finish := rfl

/-- A request whose response is deferred. -/
theorem Device.conclude_wait (d e : Device) (p : Port) (q : Request) (n : Nat) :
    d.conclude p q n (.wait e) = e.finish := rfl

/-- The end of a taking is made on each branch of a choice. -/
theorem Device.conclude_ite (d : Device) (p : Port) (q : Request) (n : Nat) (c : Prop) [Decidable c] (x y : Taken) :
    d.conclude p q n (if c then x else y) = if c then d.conclude p q n x else d.conclude p q n y := by
  split <;> rfl

/-- The next states of a choice are a choice between the next states. -/
theorem State.to_ite (s : State) (c : Prop) [Decidable c] (x y : Device) :
    s.to (if c then x else y) = if c then s.to x else s.to y := by
  split <;> rfl

end Sys2Proof.Machine
end

