-- ==== Sys2Proof/Tests/Slice0.lean ====
section
/-! SUPPORT. Tests: the checks of well-formedness, one step of each command on a small state, and for each statement
with hypotheses a state and operands that meet them. -/

namespace Sys2Proof.Tests

open Sys2Proof Sys2Proof.Machine

set_option Elab.async false

/-! ### Small states -/

/-- A part whose settings image has loaded. -/
def base : Device := (Device.powerOn factoryImage).loadEnds

/-- A request record with tag 7. -/
def record (code flags tunnel : Nat) (operands : List Byte) : List Byte :=
  beBytes 2 7 ++ beBytes 1 code ++ beBytes 1 flags ++ beBytes 2 tunnel ++ operands
    ++ List.replicate (26 - operands.length) 0

/-- A part with one request waiting on a port. -/
def posed (d : Device) (p : Port) (code flags tunnel : Nat) (operands : List Byte) : State :=
  ⟨d.modPort p fun x => { x with ready := true, requests := [record code flags tunnel operands] }, []⟩

/-- The request at the head of a port's queue. -/
def head (s : State) (p : Port) : Request := Request.ofRecord ((s.dev.port p).requests.headD [])

/-- The part after a command. -/
def after (o : Host.Outcome State Fault Refusal) : Device :=
  match o with
  | .next t => t.dev
  | _ => base

/-- The status and outcome of the last response of a port. -/
def told (o : Host.Outcome State Fault Refusal) (p : Port) : Option (Status × Result) :=
  ((after o).port p).responses.getLast?.map fun r => (r.response.status, r.response.result)

/-- What `Poses` asks, as a test. -/
def posesNow (s : State) (p : Port) (code : Nat) : Bool :=
  match catalogue code with
  | some row =>
    (s.dev.port p).ready && decide ((s.dev.port p).requests ≠ []) && decide ((head s p).code = code)
      && decide ((s.dev.port p).responses.length + (s.dev.port p).reserved + row.places ≤ 32)
      && decide (commonTests p row (head s p) = none)
  | none => false

theorem poses_of_now {s : State} {p : Port} {code : Nat} (h : posesNow s p code = true) :
    s.dev.Poses p (head s p) code := by
  unfold posesNow at h
  cases hc : catalogue code with
  | none => simp [hc] at h
  | some row =>
    simp only [hc, Bool.and_eq_true, decide_eq_true_eq] at h
    obtain ⟨⟨⟨⟨hr, hq⟩, hcode⟩, hp⟩, ht⟩ := h
    refine ⟨row, hc, hcode, ⟨hr, ?_, hp⟩, ht⟩
    cases hl : (s.dev.port p).requests with
    | nil => exact absurd hl hq
    | cons r rs => simp [head, hl]

/-- A key record of an epoch in an entry, its ages begun at 0. -/
def aKey (epoch entry : Nat) : KeyRecord :=
  { KeyRecord.installed epoch entry with
    ageStart := some 0, softDeadline := some 43200000000, hardDeadline := some 86400000000 }

/-- An IN_SERVICE tunnel with an ACTIVE key. -/
def inService : Tunnel :=
  { Tunnel.initial with
    state := .inService, shop := some 7, profile := some 0, current := some ⟨.active, aKey 1 0⟩ }

/-- A part with this record for tunnel 3, one key in use, two cells CLAIMED by the traffic port and one by the key
port. -/
def withTunnel (x : Tunnel) : Device :=
  { base with
    tunnels := [(3, x)]
    keys := { base.keys with entries := [(0, .blank)] }
    store :=
      ⟨[(0, ⟨.claimed .traffic, some .regular⟩), (1, ⟨.claimed .traffic, some .regular⟩),
        (2, ⟨.claimed .key, some .reserved⟩)], [(0, 5)]⟩ }

/-- A part with tunnel 3 IN_SERVICE. -/
def serving : Device := withTunnel inService

/-- A frame of the traffic port in these cells. -/
def aFrame (flow : Flow) (cells : List Nat) : Frame :=
  ⟨.trafficPort, 7, 3, flow, cells, List.replicate 32 0, 0, false, false, false, none⟩

/-- A part with this flow's frame in work in cell 1 and an outbound frame waiting in BULK in cell 2. -/
def busy (flow : Flow) : Device :=
  { base with
    tunnels := [(3, { inService with frameCount := 2, current := some ⟨.active, { aKey 1 0 with bound := true }⟩ })]
    keys := { base.keys with entries := [(0, .blank)] }
    engine := { base.engine with
      inWork := some ⟨aFrame flow [1], .bulk, 0, 1⟩, bulk := [aFrame (.outbound .data) [2]] }
    traffic := { base.traffic with reserved := 2 }
    store :=
      ⟨[(0, ⟨.claimed .traffic, some .regular⟩), (1, ⟨.inWork, some .regular⟩), (2, ⟨.queued, some .regular⟩)],
        [(0, 5)]⟩ }

theorem base_queues : base.engine.control = [] ∧ base.engine.settle = [] := ⟨rfl, rfl⟩

/-- A running proof record of tunnel 3. -/
def aProof (purpose : Purpose) (mode : ProofMode) (phase : Phase) : ProofRecord :=
  ⟨3, purpose, mode, 1, 0, 0, phase, List.replicate 8 0, 0, 0⟩

/-- A part with a proof running on tunnel 3. -/
def proving (purpose : Purpose) (mode : ProofMode) (phase : Phase) : Device :=
  { withTunnel { inService with underProof := true } with
    proofs := { base.proofs with running := some (aProof purpose mode phase) } }

/-- A set latch. -/
def aLatch : Latch := ⟨.reported, 9, 1, 4, false⟩

/-! ### Ill-formed commands -/

theorem test_wf_write_unaligned : (Instr.portWindowWrite .traffic 2 0).wellFormed = false := by decide +kernel
theorem test_wf_write_of_last_word : (Instr.portWindowWrite .traffic 0x1C 0).wellFormed = false := by decide +kernel
theorem test_wf_write_in_cell_window : (Instr.portWindowWrite .key 0x80000 0).wellFormed = false := by decide +kernel
theorem test_wf_write_outside : (Instr.portWindowWrite .key 0x100000 0).wellFormed = false := by decide +kernel
theorem test_wf_response_unaligned : (Instr.responseRead .traffic 0x21).wellFormed = false := by decide +kernel
theorem test_wf_response_in_notice_area : (Instr.responseRead .traffic 0x40).wellFormed = false := by decide +kernel
theorem test_wf_response_in_status : (Instr.responseRead .traffic 0x60).wellFormed = false := by decide +kernel
theorem test_wf_response_in_cell_window : (Instr.responseRead .key 0xFFFFC).wellFormed = false := by decide +kernel
theorem test_wf_notice_unaligned : (Instr.noticeRead .key 0x42).wellFormed = false := by decide +kernel
theorem test_wf_notice_below : (Instr.noticeRead .key 0x3C).wellFormed = false := by decide +kernel
theorem test_wf_notice_above : (Instr.noticeRead .key 0x60).wellFormed = false := by decide +kernel
theorem test_wf_cell_unaligned : (Instr.cellWindowAccess .key 0x80001 none).wellFormed = false := by decide +kernel
theorem test_wf_cell_below : (Instr.cellWindowAccess .traffic 0x7FFFC none).wellFormed = false := by decide +kernel
theorem test_wf_grace : (Instr.graceExpiry 480).wellFormed = false := by decide +kernel
theorem test_wf_softAge : (Instr.softAgeExpiry 480).wellFormed = false := by decide +kernel
theorem test_wf_hardAge : (Instr.hardAgeExpiry 480).wellFormed = false := by decide +kernel
theorem test_wf_interval : (Instr.intervalExpiry 480).wellFormed = false := by decide +kernel
theorem test_wf_silence : (Instr.silenceExpiry 480).wellFormed = false := by decide +kernel
theorem test_wf_keepalive : (Instr.keepaliveExpiry 480).wellFormed = false := by decide +kernel
theorem test_wf_hold : (Instr.holdExpiry 480).wellFormed = false := by decide +kernel

/-- The premise of WellFormedCommandsComplete, at the largest tunnel and the last words of a window. -/
theorem test_meets_WellFormedCommandsComplete :
    (Instr.graceExpiry 479).wellFormed = true ∧ (Instr.portWindowWrite .operations 0xFFFFC 0).wellFormed = true
      ∧ (Instr.cellWindowAccess .traffic 0xFFFFC none).wellFormed = true
      ∧ (Instr.noticeRead .key 0x5C).wellFormed = true ∧ (Instr.responseRead .key 0x3C).wellFormed = true := by
  decide +kernel

theorem test_fault_outside : exec (.responseRead .key 0x100000) ⟨base, []⟩ = .fault .outsideWindow := rfl
theorem test_fault_unaligned : exec (.noticeRead .key 0xFFFFF) ⟨base, []⟩ = .fault .unalignedAccess := rfl

/-! ### Power, settings and the clock -/

theorem test_step_takes_the_front :
    step { State.reset with pending := [.loadComplete, .saveComplete] } = .next ⟨base, [.saveComplete]⟩ := rfl
theorem test_load_completes : base.loading = false ∧ base.traffic.ready ∧ base.key.ready ∧ base.operations.ready := by
  decide +kernel
theorem test_load_that_fails_defaults :
    ((after (exec .loadComplete ⟨Device.powerOn ⟨Config.factoryItems, false⟩, []⟩)).faults.settingsDefaulted).isSome
      = true := by decide +kernel
theorem test_load_of_a_value_out_of_range_defaults :
    ((after (exec .loadComplete ⟨Device.powerOn ⟨{ Config.factoryItems with lowMark := 1025 }, true⟩,
      []⟩)).faults.settingsDefaulted).isSome = true
      ∧ (after (exec .loadComplete ⟨Device.powerOn ⟨{ Config.factoryItems with lowMark := 1024 }, true⟩,
        []⟩)).keys.lowMark = 1024 := by decide +kernel
theorem test_save_completes :
    told (exec .saveComplete ⟨{ base with saving := some ⟨Config.factoryItems, some 7⟩ }, []⟩) .operations
      = some (.done, .none) := by decide +kernel
theorem test_save_twice_is_busy :
    told (exec (.saveSettings .operations) (posed { base with saving := some ⟨Config.factoryItems, none⟩ } .operations
      32 0 0 [0])) .operations = some (.busy, .none) := by decide +kernel
/-- The operands of a SAVE_SETTINGS that replaces the device settings, every value at an end of its range but the low
mark of the engine as given. -/
def replacing (low : List Byte) : List Byte := [1, 1, 128] ++ low ++ [0, 1, 134, 160, 64, 4, 0, 15]

/-- The premises of SavesReplaceTheImage: KEEP, REPLACE at the ends of the ranges, a low mark at the high mark, no such
choice, a save that runs, and none. -/
theorem test_meets_SavesReplaceTheImage :
    (∀ operands ∈ [[0], replacing [1, 127], replacing [1, 128], [2]],
      ∃ q, (posed base .operations 32 0 0 operands).dev.Poses .operations q 32)
      ∧ (∃ v, { base with saving := some ⟨Config.factoryItems, none⟩ }.saving = some v) ∧ base.saving = none :=
  ⟨fun operands h => ⟨_, poses_of_now (by revert operands; decide +kernel)⟩, ⟨_, rfl⟩, rfl⟩
theorem test_save_replaces :
    let s := exec (.saveSettings .operations) (posed base .operations 32 0 0 (replacing [1, 127]))
    (after s).saving.map (fun v => (v.copy.marks, v.copy.lowMark, v.owed))
      = some (⟨384, 383, 100000, 64⟩, 1024, some 7) := by decide +kernel
theorem test_save_of_marks_that_meet :
    told (exec (.saveSettings .operations) (posed base .operations 32 0 0 (replacing [1, 128]))) .operations
      = some (.badRequest, .none) := by decide +kernel

/-- The premises of DeviceRestartKeepsTheBank: a restart taken, one on another port, and one with flags. -/
theorem test_meets_DeviceRestartKeepsTheBank :
    (∃ (s : State) (q : Request), s.dev.operations.ready = true
      ∧ s.dev.operations.requests.head?.map Request.ofRecord = some q ∧ q.code = 33 ∧ q.flags = 0)
      ∧ (∃ (s : State) (q : Request), s.dev.Offers .key q 1 ∧ q.code = 33)
      ∧ ∃ (s : State) (q : Request), s.dev.Offers .operations q 1 ∧ q.code = 33 ∧ q.flags ≠ 0 :=
  ⟨⟨posed base .operations 33 0 0 [], _, rfl, rfl, by decide +kernel, by decide +kernel⟩,
    ⟨posed base .key 33 0 0 [], _, ⟨rfl, rfl, by decide +kernel⟩, by decide +kernel⟩,
    posed base .operations 33 1 0 [], _, ⟨rfl, rfl, by decide +kernel⟩, by decide +kernel, by decide +kernel⟩
theorem test_restart_freezes :
    (after (exec (.deviceRestart .operations) (posed base .operations 33 0 0 []))).bank.state = .frozen .restart := by
  decide +kernel
theorem test_clock_wraps :
    (after (exec .deviceClockAdvance ⟨{ base with clock := BitVec.allOnes 48 }, []⟩)).clock = 0 := by decide +kernel
/-- The clauses of TheClockAndTheBankCount: no deadline at the value to which the clock comes, one, and every deadline
there is. -/
theorem test_meets_TheClockAndTheBankCount :
    let d := withTunnel { inService with holdDeadline := some 1 }
    let x : Tunnel :=
      { inService with
        holdDeadline := some 0, previous := some { aKey 9 5 with graceDeadline := some 0 }
        current := some ⟨.active, { aKey 1 0 with softDeadline := some 0, hardDeadline := some 0 }⟩
        condition := { Condition.initial with
          intervalDeadline := some 0, silenceDeadline := some 0, keepaliveDeadline := some 0 } }
    let e := { proving .operations .stopFirst (.awaitEcho 1 0) with tunnels := [(3, x)] }
    { base with clock := base.clock + 1 }.dueNow = [] ∧ { d with clock := d.clock + 1 }.dueNow = [.hold 3]
      ∧ (∀ y ∈ [Due.grace 3, .softAge 3, .hardAge 3, .interval 3, .silence 3, .keepalive 3, .hold 3, .echo],
        y ∈ e.dueNow)
      ∧ e.dueNow.length = 8 := by
  decide +kernel
theorem test_edge_counts_an_entry :
    let m : Monitor := ⟨4, false, .level .engineBusy, .all, .edge, .atOrAbove, 0, false, some false⟩
    let d := { base with bank := { base.bank with monitors := [m] } }
    d.closeEvent.bank.monitors = [{ m with counter := 5, held := some true }]
      ∧ d.closeEvent.closeEvent.bank.monitors = [{ m with counter := 5, held := some true }]
      ∧ { d with bank := { d.bank with state := .frozen .request } }.closeEvent.bank.monitors
        = [{ m with held := some true }] := by decide +kernel
theorem test_clock_comes_to_a_hold :
    let d := withTunnel { inService with state := .isolated, holdDeadline := some 1 }
    ((after (exec .deviceClockAdvance ⟨d, []⟩)).tunnel 3).holdDeadline = none := by decide +kernel

/-! ### The port windows -/

/-- The premises of WindowWritesReachTheirArea at the ends of the areas. -/
theorem test_meets_WindowWritesReachTheirArea :
    ∀ off ∈ [0x0, 0x18, 0x1C, 0x20, 0x7FFFC, 0x80000, 0xFFFFC], off < 0x100000 ∧ off % 4 = 0 := by decide +kernel
theorem test_write_assembles :
    (after (exec (.portWindowWrite .key 0x18 0x01020304) ⟨base, []⟩)).key.buffer
      = List.replicate 24 0 ++ [1, 2, 3, 4] ++ List.replicate 4 0 := by decide +kernel
theorem test_write_of_a_response_is_ignored :
    exec (.portWindowWrite .key 0x20 5) ⟨base, []⟩ = .next ⟨base, []⟩ := rfl
theorem test_post_queues :
    (after (exec (.requestPost .key 1) ⟨base, []⟩)).key.requests = [List.replicate 31 0 ++ [1]] := by decide +kernel
theorem test_post_into_a_full_queue :
    let d := { base with key := { base.key with requests := List.replicate 16 [] } }
    (after (exec (.requestPost .key 1) ⟨d, []⟩)).key.overrun = true := by decide +kernel
theorem test_status_word :
    (after (exec (.statusRead .key) ⟨{ base with key := { base.key with overrun := true } }, []⟩)).key.bus
      = 0x00001005#32 := by decide +kernel
/-- The premises of StatusReadsClearThreeLatches, at the ends of their ranges. -/
theorem test_meets_StatusReadsClearThreeLatches :
    (∃ x : PortState, x.requests.length = 16 ∧ x.responses.length = 32 ∧ x.notices.length = 128)
      ∧ base.key.requests.length = 0 ∧ base.key.responses.length = 0 ∧ base.key.notices.length = 0 :=
  ⟨⟨{ base.key with
      requests := List.replicate 16 []
      responses := List.replicate 32 ⟨⟨0, 1, .done, .none, .empty⟩, 0, 1⟩
      notices := List.replicate 128 ⟨none, 0, .deviceFault .keystoreLow aLatch⟩ }, rfl, rfl, rfl⟩, rfl, rfl, rfl⟩
/-- The clauses of ReadsShowTheHeads at the ends of their ranges. -/
theorem test_meets_ReadsShowTheHeads :
    (∀ off ∈ [0x20, 0x3C], off % 4 = 0 ∧ 0x20 ≤ off ∧ off < 0x40)
      ∧ (∀ off ∈ [0x0, 0x1C], off % 4 = 0 ∧ off < 0x20)
      ∧ (∀ off ∈ [0x64, 0x7FFFC], off % 4 = 0 ∧ 0x64 ≤ off ∧ off < 0x100000 ∧ off < 0x80000)
      ∧ (∀ off ∈ [0x80000, 0xFFFFC], off % 4 = 0 ∧ 0x64 ≤ off ∧ off < 0x100000)
      ∧ ∀ off ∈ [0x40, 0x5C], off % 4 = 0 ∧ 0x40 ≤ off ∧ off < 0x60 := by decide +kernel
theorem test_response_read_shows_the_header :
    let x := { base.key with responses := [⟨⟨0x0102, 2, .notOwner, .none, .empty⟩, 0, 1⟩] }
    (after (exec (.responseRead .key 0x20) ⟨{ base with key := x }, []⟩)).key.bus = 0x01020204#32 := by decide +kernel
theorem test_last_response_word_removes :
    let x := { base.key with responses := [⟨⟨0x0102, 2, .notOwner, .none, .empty⟩, 0, 1⟩] }
    (after (exec (.responseRead .key 0x3C) ⟨{ base with key := x }, []⟩)).key.responses = [] := by decide +kernel
theorem test_notice_read_shows_kind_and_tunnel :
    let x := { base.key with notices := [⟨some 3, 0x0A0B0C0D0E0F, .keyFollowed 1 .current none⟩] }
    (after (exec (.noticeRead .key 0x40) ⟨{ base with key := x }, []⟩)).key.bus = 0x0400030A#32 := by decide +kernel
theorem test_last_notice_word_removes :
    let x := { base.key with notices := [⟨some 3, 0, .keyFollowed 1 .current none⟩] }
    (after (exec (.noticeRead .key 0x5C) ⟨{ base with key := x }, []⟩)).key.notices = [] := by decide +kernel
/-- The clauses of CellWindowReachesOwnedCellsOnly: a cell of the port's own, one that is not, and the port without a
cell window. -/
theorem test_meets_CellWindowReachesOwnedCellsOnly :
    (serving.store.cell ((0x80000 - 0x80000) / 256)).state = .claimed .traffic
      ∧ (serving.store.cell ((0x802FC - 0x80000) / 256)).state = .claimed .key
      ∧ (serving.store.cell ((0xFFFFC - 0x80000) / 256)).state = .free := by decide +kernel
/-- A part whose frame in work, of a port that was reset after it was submitted, is in cell 1. -/
def orphaned : Device :=
  { busy (.outbound .data) with engine := { (busy (.outbound .data)).engine with
      inWork := some ⟨{ aFrame (.outbound .data) [1] with orphan := true }, .bulk, 0, 1⟩ } }

/-- The wire frame laid in a frame's cells changes their bytes only. -/
theorem layWire_only (d : Device) (f : Frame) (h : Header) (e : Nat) :
    ∃ bytes, d.layWire f h e = { d with store := { d.store with bytes := bytes } } := by
  refine ⟨(d.layWire f h e).store.bytes, ?_⟩
  have c : (d.layWire f h e).store.cells = d.store.cells := CellStore.cells_lay _ _ _
  show d.layWire f h e = { d with store := ⟨d.store.cells, (d.layWire f h e).store.bytes⟩ }
  rw [← c]
  rfl

/-- An access meets a loss at an outbound completion, said without the bytes that the completion lays. -/
theorem meets_at_completion (d : Device) (w : InWork) (k : FrameKind) (p : Port) (n : Nat) (b : Bool)
    (hw : d.engine.inWork = some w) (hk : w.frame.flow = .outbound k)
    (h : ∀ bytes,
      let t := w.frame.tunnel
      let epoch := ((((d.tunnel t).slotOf w.entry).bind (d.tunnel t).key?).map (·.epoch)).getD 0
      let e : Device := { d with store := { d.store with bytes := bytes }, engine := { d.engine with inWork := none } }
      let e := ((e.releaseKey t w.entry).announceSent w.frame k epoch w.sequence).outboundSent t
      let e := (((e.give .framesSent (some t)).uncount t).endClosing t).settle
      (d.engine.holdsFor p n && !e.engine.holdsFor p n && !e.store.touchable p n) = b) :
    d.meetsLoss (some .outboundCompletion) p n = b := by
  show (d.engine.holdsFor p n && !d.outboundEnds.engine.holdsFor p n && !d.outboundEnds.store.touchable p n) = b
  obtain ⟨he, hs⟩ := (d.completeOutbound w k).finish_kept
  have e : d.outboundEnds = (d.completeOutbound w k).finish := by
    unfold Device.outboundEnds
    rw [hw]
    simp only [hk]
  rw [e, he, hs]
  unfold Device.completeOutbound
  simp only
  generalize hh : d.outboundHeader _ _ _ _ = header
  obtain ⟨bytes, e⟩ := layWire_only d w.frame header w.entry
  rw [e]
  exact h bytes

/-- A part whose outbound frame in work is followed by an inbound one in cell 2, of zeros only: MALFORMED at its take. -/
def followed : Device :=
  { busy (.outbound .data) with
    engine := { (busy (.outbound .data)).engine with bulk := [aFrame (.inbound 1) [2]] } }

/-- An access that meets the loss of its cell, and accesses that do not: with no completion next, to a cell that is not
the frame's, by another port, and where the completion leaves the cell to the port. -/
theorem test_meets_CellWindowReachesOwnedCellsOnly_at_a_loss :
    orphaned.meetsLoss (some .outboundCompletion) .traffic 1 = true ∧ orphaned.meetsLoss none .traffic 1 = false
      ∧ orphaned.meetsLoss (some .outboundCompletion) .traffic 3 = false
      ∧ orphaned.meetsLoss (some .outboundCompletion) .key 1 = false
      ∧ (busy (.outbound .data)).meetsLoss (some .outboundCompletion) .traffic 1 = false :=
  ⟨meets_at_completion _ _ .data _ _ _ rfl rfl fun _ => by cbv, rfl,
    meets_at_completion _ _ .data _ _ _ rfl rfl fun _ => by cbv,
    meets_at_completion _ _ .data _ _ _ rfl rfl fun _ => by cbv,
    meets_at_completion _ _ .data _ _ _ rfl rfl fun _ => by cbv⟩
/-- An access to the cell of a waiting frame: its frame fails at take in the event of the completion before it, or it is
removed in the event that closes its tunnel. -/
theorem test_meets_CellWindowReachesOwnedCellsOnly_of_a_waiting_frame :
    followed.meetsLoss (some .outboundCompletion) .traffic 2 = true
      ∧ (let s := posed followed .operations 13 0 3 []
        s.dev.meetsLoss (some (.closeTunnel .operations)) .traffic 2 = true
          ∧ s.dev.meetsLoss (some (.closeTunnel .operations)) .traffic 1 = false) :=
  ⟨meets_at_completion _ _ .data _ _ _ rfl rfl fun _ => by cbv, by decide +kernel, by decide +kernel⟩
theorem test_write_at_a_loss :
    (orphaned.writeCell .traffic 0x80100 0x01020304 (some .outboundCompletion)).store.bytes
        = [(0, 5), (0x100, 1), (0x101, 2), (0x102, 3), (0x103, 4)]
      ∧ (orphaned.writeCell .traffic 0x80100 0x01020304 none).traffic.accessFault = true := by
  have h : orphaned.storesWrite (some .outboundCompletion) .traffic 1 = true := by
    unfold Device.storesWrite
    rw [test_meets_CellWindowReachesOwnedCellsOnly_at_a_loss.1]
    rfl
  refine ⟨?_, rfl⟩
  unfold Device.writeCell
  rw [show windowCell 0x80100 = 1 from rfl, h]
  decide +kernel
theorem test_read_at_a_loss :
    (followed.readCell .traffic 0x80200 (some .outboundCompletion)).traffic.accessFault = false
      ∧ (followed.readCell .traffic 0x80200 none).traffic.accessFault = true := by
  have h : followed.answersRead (some .outboundCompletion) .traffic 2 = true := by
    unfold Device.answersRead
    rw [test_meets_CellWindowReachesOwnedCellsOnly_of_a_waiting_frame.1, Bool.or_true]
  refine ⟨?_, rfl⟩
  unfold Device.readCell
  rw [show windowCell 0x80200 = 2 from rfl, h]
  rfl
theorem test_write_of_a_queued_cell_is_ignored :
    followed.writeCell .traffic 0x80200 0x01020304 (some .outboundCompletion)
      = followed.modPort .traffic fun x => { x with accessFault := true } := rfl
theorem test_cell_write :
    (after (exec (.cellWindowAccess .key 0x802FC (some 0x01020304)) ⟨serving, []⟩)).store.bytes.read 0x2FE = 3 := by
  decide +kernel
theorem test_cell_read_of_another :
    let d := after (exec (.cellWindowAccess .key 0x80000 none) ⟨serving, []⟩)
    d.key.accessFault = true ∧ d.key.bus = 0 := by decide +kernel
theorem test_port_reset_frees :
    let d := after (exec (.portReset .traffic 7) ⟨serving, []⟩)
    d.store.cells = [(2, ⟨.claimed .key, some .reserved⟩)] ∧ d.store.bytes = []
      ∧ d.traffic.responses = [⟨⟨7, 34, .done, .none, .portReset 0 2⟩, 0, 1⟩] := by decide +kernel
theorem test_port_reset_marks_frames :
    let f : Frame := { aFrame (.outbound .dialogue) [2] with party := .keyPort, reserved := true }
    let d := { busy (.outbound .data) with engine := { (busy (.outbound .data)).engine with control := [f], bulk := [] } }
    let e := (after (exec (.portReset .traffic 7) ⟨d, []⟩)).engine
    (e.inWork.map (·.frame.orphan)) = some true
      ∧ e.control = [{ f with reserved := false, lost := true }] := by decide +kernel
theorem test_port_reset_untells :
    { aKey 1 0 with renewal := .reported .age, followed := .unreported none }.untold
        = { aKey 1 0 with renewal := .unreported .age, followed := .unreported none }
      ∧ aLatch.unreport = { aLatch with report := .unreported }
      ∧ { aLatch with report := .silent }.unreport = { aLatch with report := .silent } := by decide +kernel
theorem test_port_reset_by_record :
    let d := { base with traffic := { base.traffic with buffer := record 34 0 0 [] } }
    told (exec (.requestPost .traffic 0) ⟨d, []⟩) .traffic = some (.done, .none) := by decide +kernel

/-! ### The common tests -/

/-- The clauses of CommonTestsComeFirst: not taken, wrong port, flags, tunnel 480, tunnel 479 passed, unknown code. -/
theorem test_meets_CommonTestsComeFirst :
    requestTaken (.openTunnel .key) = some (.key, 12) ∧ catalogue 12 = some ⟨[.operations], 1, true⟩
      ∧ (∃ q, (posed base .key 12 0 3 []).dev.Offers .key q 1 ∧ q.code = 12 ∧ Port.key ∉ [Port.operations])
      ∧ (∃ q, (posed base .operations 12 1 3 []).dev.Offers .operations q 1 ∧ q.code = 12 ∧ q.flags ≠ 0)
      ∧ (∃ q, (posed base .operations 12 0 480 []).dev.Offers .operations q 1 ∧ q.flags = 0 ∧ q.tunnel = 480)
      ∧ (∃ q, (posed base .operations 99 0 0 []).dev.Offers .operations q 1 ∧ catalogue q.code = none) := by
  refine ⟨rfl, rfl, ⟨_, ⟨rfl, rfl, ?_⟩, ?_⟩, ⟨_, ⟨rfl, rfl, ?_⟩, ?_⟩, ⟨_, ⟨rfl, rfl, ?_⟩, ?_⟩, _, ⟨rfl, rfl, ?_⟩, ?_⟩
    <;> decide +kernel
/-- A record of 32 bytes and what it spells, and a code of the catalogue and one that is not. -/
theorem test_record_spells_a_request :
    (record 12 1 479 [9]).length = 32
      ∧ Request.ofRecord (record 12 1 479 [9]) = ⟨7, 12, 1, 479, 9 :: List.replicate 25 0⟩
      ∧ (catalogue 31).map (·.places) = some 8 ∧ catalogue 34 = none ∧ catalogue 0 = none := by decide +kernel
theorem test_not_ready_waits : exec (.openTunnel .key) State.reset = .next State.reset := rfl
theorem test_no_tunnel :
    told (exec (.openTunnel .operations) (posed base .operations 12 0 480 [])) .operations = some (.noTunnel, .none) := by
  decide +kernel
theorem test_unknown_code :
    told (exec (.unknownRequestCode .operations) (posed base .operations 34 0 0 [])) .operations
      = some (.badRequest, .none) := by decide +kernel

/-! ### Cells -/

/-- The premises of ClaimsAreGrantedWhole on both ports, with 16 cells granted, 17 refused, none refused. -/
theorem test_meets_ClaimsAreGrantedWhole :
    (∃ q, (posed base .traffic 1 0 0 [16]).dev.Poses .traffic q 1) ∧ ∃ q, (posed base .key 1 0 0 [1]).dev.Poses .key q 1 :=
  ⟨⟨_, poses_of_now (by decide +kernel)⟩, _, poses_of_now (by decide +kernel)⟩
theorem test_claim_refused :
    told (exec (.claimCells .traffic) (posed base .traffic 1 0 0 [17])) .traffic = some (.badRequest, .none)
      ∧ told (exec (.claimCells .key) (posed base .key 1 0 0 [0])) .key = some (.badRequest, .none) := by decide +kernel
theorem test_claim_passes_over_cells_in_use :
    ((after (exec (.claimCells .key) (posed serving .key 1 0 0 [2]))).store.cells.map (·.1)) = [0, 1, 2, 3, 4] := by
  decide +kernel
/-- The premises of GrantsTakeTheLowestFreeCells. -/
theorem test_meets_GrantsTakeTheLowestFreeCells :
    (CellStore.mk [] []).Ok ∧ (CellStore.mk [] []).charged .reserved + 256 ≤ Pool.limit .reserved
      ∧ CellState.queued ≠ .free := by
  unfold CellStore.Ok
  decide +kernel
theorem test_meets_ReleasesFreeAndWipe :
    (∃ q, (posed serving .traffic 2 0 0 [2, 0, 0, 0, 1]).dev.Poses .traffic q 2)
      ∧ ∃ q, (posed serving .key 2 0 0 [1, 0, 2]).dev.Poses .key q 2 :=
  ⟨⟨_, poses_of_now (by decide +kernel)⟩, _, poses_of_now (by decide +kernel)⟩
theorem test_release :
    let d := after (exec (.releaseCells .traffic) (posed serving .traffic 2 0 0 [2, 0, 0, 0, 1]))
    d.store.cells = [(2, ⟨.claimed .key, some .reserved⟩)] ∧ d.store.bytes = [] := by decide +kernel
theorem test_freeing_a_reserved_cell_makes_an_attempt_due :
    (serving.freeCells [2]).buildDue = true ∧ (serving.freeCells [0, 1]).buildDue = false := by decide +kernel
theorem test_release_of_another :
    told (exec (.releaseCells .key) (posed serving .key 2 0 0 [1, 0, 0])) .key = some (.notOwner, .none)
      ∧ told (exec (.releaseCells .key) (posed serving .key 2 0 0 [0])) .key = some (.badRequest, .none) := by
  decide +kernel
theorem test_meets_FramesAreLaidInCellOrder :
    ([4, 2] : List Nat).Nodup ∧ (List.replicate 512 (1 : Byte)).length ≤ ([4, 2] : List Nat).length * 256 := by
  decide +kernel

/-! ### Frames -/

/-- The operands of a frame of 1472 bytes or fewer in cell 0. -/
theorem test_meets_SendFrameQueuesADataFrame :
    ∃ q, (posed serving .traffic 3 0 3 [1, 0, 224, 1, 0, 0]).dev.Poses .traffic q 3 :=
  ⟨_, poses_of_now (by decide +kernel)⟩
theorem test_send_too_few_cells :
    told (exec (.sendFrame .traffic) (posed serving .traffic 3 0 3 [1, 0, 225, 1, 0, 0])) .traffic
      = some (.tooFewCells, .none) := by decide +kernel
theorem test_send_that_fails_at_take :
    told (exec (.sendFrame .traffic) (posed serving .traffic 3 0 4 [1, 0, 224, 1, 0, 0])) .traffic
      = some (.done, .notInService) := by decide +kernel
/-- Every premise of AnIdleEngineTakesTheFrameAtOnce, with the largest payload that one cell holds. -/
theorem test_meets_AnIdleEngineTakesTheFrameAtOnce :
    let s := posed serving .traffic 3 0 3 [1, 0, 224, 1, 0, 0]
    let q := head s .traffic
    s.dev.Poses .traffic q 3 ∧ s.dev.Quiet ∧ s.dev.engine.inWork = none ∧ s.dev.proofs.running = none
      ∧ q.num 0 1 ≤ 1 ∧ q.num 1 2 ≤ 1472 ∧ 1 ≤ q.num 3 1 ∧ q.num 3 1 ≤ 6 ∧ (q.numbers 3).Nodup
      ∧ (q.num 1 2 + 32 + 255) / 256 ≤ (q.numbers 3).length
      ∧ (∀ n ∈ q.numbers 3, n < 2048 ∧ (s.dev.store.cell n).state = .claimed .traffic)
      ∧ (s.dev.tunnel q.tunnel).state = .inService ∧ (s.dev.tunnel q.tunnel).outCauses = ⟨false, false, false⟩
      ∧ (s.dev.tunnel q.tunnel).current = some ⟨.active, aKey 1 0⟩ ∧ (aKey 1 0).retirePending = false := by
  refine ⟨poses_of_now (by decide +kernel),
    ⟨⟨by decide +kernel, fun _ => by decide +kernel, Or.inl (by decide +kernel)⟩, by decide +kernel⟩, ?_⟩
  decide +kernel
theorem test_meets_ReceiveFrameQueuesByKind :
    ∃ q, (posed serving .traffic 4 0 3 [0, 0, 32, 1, 0, 0]).dev.Poses .traffic q 4 :=
  ⟨_, poses_of_now (by decide +kernel)⟩
theorem test_receive_malformed :
    told (exec (.receiveFrame .traffic) (posed serving .traffic 4 0 3 [0, 0, 32, 1, 0, 0])) .traffic
      = some (.done, .malformed) := by decide +kernel
theorem test_receive_too_short :
    told (exec (.receiveFrame .traffic) (posed serving .traffic 4 0 3 [0, 0, 31, 1, 0, 0])) .traffic
      = some (.badRequest, .none) := by decide +kernel
theorem test_meets_SendDialogueReservesAPlace :
    ∃ q, (posed serving .key 6 0 3 [0, 224, 1, 0, 2]).dev.Poses .key q 6 := ⟨_, poses_of_now (by decide +kernel)⟩
theorem test_dialogue_enters_work :
    let d := after (exec (.sendDialogue .key) (posed serving .key 6 0 3 [0, 224, 1, 0, 2]))
    (d.engine.inWork.map fun w => (w.sequence, w.frame.cells)) = some (1, [2]) ∧ d.generatedReserved = 1 := by
  decide +kernel
theorem test_dialogue_of_another :
    told (exec (.sendDialogue .key) (posed serving .key 6 0 3 [0, 224, 1, 0, 0])) .key = some (.notOwner, .none) := by
  decide +kernel

/-! ### Takes -/

/-- An inbound frame of tunnel 3 in cell 0, without a payload. -/
def received (kind epoch : Nat) : Frame :=
  { aFrame (.inbound (BitVec.ofNat 8 kind)) [0] with
    content := Header.bytes ⟨3, kind, epoch, 0, 2, 7, 1, 0⟩ ++ List.replicate 16 0 }

/-- The clauses of ChecksAtTakeDecideInOrder: a header that parses, its epoch in CURRENT, and in no slot. -/
theorem test_meets_ChecksAtTakeDecideInOrder :
    (received 1 1).header = ⟨3, 1, 1, 0, 2, 7, 1, 0⟩ ∧ (received 1 1).size = 32
      ∧ serving.inboundCheck (received 1 1) = .ok .current
      ∧ serving.inboundCheck (received 1 2) = .error (.epochMiss, .inbound 1 2 1)
      ∧ serving.inboundCheck (received 3 1) = .ok .current
      ∧ serving.outboundCheck 4 .data = some .notInService ∧ serving.outboundCheck 3 .data = none :=
  ⟨by decide +kernel, rfl, rfl, rfl, rfl, rfl, rfl⟩
theorem test_failed_take_hands_the_cells_back :
    let d := { busy (.outbound .data) with
      tunnels := [(3, { inService with frameCount := 2, outCauses := ⟨true, false, false⟩ })] }
    let e := d.judgeFrame .bulk (aFrame (.outbound .data) [2])
    (e.store.cell 2).state = .done .traffic ∧ (e.tunnel 3).frameCount = 1 ∧ e.traffic.reserved = 1
      ∧ e.traffic.responses = [⟨⟨7, 3, .done, .outboundHeld, .cells [2]⟩, 0, 1⟩] := by decide +kernel
theorem test_failed_inbound_take_is_counted :
    let d := serving.modTunnel 3 fun x => { x with condition := { x.condition with intervalDeadline := some 9 } }
    let e := d.judgeFrame .bulk (received 1 2)
    (e.store.cell 0).state = .free ∧ (e.tunnel 3).condition.totals.epochMiss = 1
      ∧ (e.traffic.responses.map (·.response.result)) = [.epochMiss] := by decide +kernel
/-- The clauses of TheModeChoosesTheQueue: the modes, a late and a young head of BULK, SETTLE below and at the high
mark, and CONTROL empty and not. -/
theorem test_meets_TheModeChoosesTheQueue :
    let f := aFrame (.outbound .data) [2]
    let crowd : Engine := { base.engine with marks := ⟨2, 1, 100, 1⟩, settle := [f, f], control := [f] }
    base.engine.mode = .base .normal ∧ { base.engine with mode := .base .settleFirst }.mode = .base .settleFirst
      ∧ { base.engine with mode := .rescue .normal 7 }.mode = .rescue .normal 7
      ∧ (busy (.inbound 1)).engine.bulk = f :: [] ∧ f.queuedAt = 0 ∧ base.engine.marks.rescueLimit = 2000
      ∧ base.engine.settle.length < base.engine.marks.high ∧ crowd.marks.high ≤ crowd.settle.length
      ∧ crowd.control = f :: [] ∧ (busy (.inbound 1)).engine.control = [] ∧ crowd.queue .settle = f :: [f] := by
  decide +kernel
/-- What is left to settle: an attempt that is due, a take, and neither. -/
theorem test_meets_TheModeChoosesTheQueue_to_settle :
    let waiting := { proving .retry .stopFirst .waitCell with buildDue := true }
    let d := { busy (.inbound 1) with engine := { (busy (.inbound 1)).engine with inWork := none } }
    (waiting.buildDue = true ∧ ∃ r, waiting.proofs.running = some r ∧ r.phase = .waitCell)
      ∧ (d.buildDue = false ∧ d.engine.inWork = none ∧ d.engine.bulk ≠ [])
      ∧ base.buildDue = false ∧ base.engine.bulk = [] :=
  ⟨⟨rfl, _, rfl, rfl⟩, by decide +kernel, by decide +kernel⟩
theorem test_rescue_at_the_limit :
    { busy (.inbound 1) with clock := 2000 }.rescueTest.engine.mode = .rescue .normal 0
      ∧ { busy (.inbound 1) with clock := 1999 }.rescueTest.engine.mode = .base .normal := by decide +kernel

/-- The clauses of TheReplayWindowJudges at the ends of the window, with H at 100. -/
theorem test_meets_TheReplayWindowJudges :
    let k := { aKey 1 0 with highest := 100, accepted := [99] }
    k.judge 101 = some { k with highest := 101, accepted := [100, 99] } ∧ k.judge 100 = none ∧ k.judge 99 = none
      ∧ k.judge 37 = some { k with accepted := [99, 37] } ∧ k.judge 36 = none ∧ k.judge 0 = none := by decide +kernel
theorem test_meets_TheReplayWindowJudges_of_a_frame :
    let d := busy (.inbound 1)
    let x := d.tunnel 3
    ∃ w, d.engine.inWork = some w ∧ w.frame.tunnel = 3
      ∧ ((x.slotOf w.entry).bind x.key?).bind (·.judge w.frame.header.sequence) = none :=
  ⟨_, rfl, rfl, by decide +kernel⟩
theorem test_bind_at_the_hard_limit :
    let c : CurrentKey := ⟨.active, { aKey 1 0 with outCount := 2 ^ 34 - 1 }⟩
    (c.bind Config.factoryProfile).state = .spent := by decide +kernel

/-! ### Completions -/

/-- The premises of OutboundFramesCompleteSent: a frame in work and none, a report that the running proof waits for and
none. -/
theorem test_meets_OutboundFramesCompleteSent :
    (∃ w, (busy (.outbound .data)).engine.inWork = some w ∧ w.frame.flow = .outbound .data)
      ∧ base.engine.inWork = none
      ∧ (∃ r, (proving .retry .stopFirst (.inFlight 1)).proofs.running = some r ∧ r.phase = .inFlight 1 ∧ r.sent = 0)
      ∧ base.proofs.running = none := ⟨⟨_, rfl, rfl⟩, rfl, ⟨_, rfl, rfl, rfl⟩, rfl⟩
theorem test_report_starts_the_echo_deadline :
    ((proving .retry .stopFirst (.inFlight 1)).proofReport 1 .sent).proofs.running.map (fun r => (r.sent, r.phase))
      = some (1, .awaitEcho 1 250000) := by decide +kernel
theorem test_outbound_completes :
    told (exec .outboundCompletion ⟨busy (.outbound .data), []⟩) .traffic = some (.done, .sent) := by decide +kernel
/-- Some frame verifies: the suite holds one that a holder of a key has made. -/
theorem test_some_frame_verifies : ∃ (w : Wire) (key : BitVec 256), w.verifies key = true ∧ w.header.length = 16 := by
  obtain ⟨key, header, payload, hl, h⟩ := Config.suite.sealedFrame
  refine ⟨⟨header, Config.suite.text key header payload,
    Config.suite.tag key header (Config.suite.text key header payload)⟩, key, ?_, hl⟩
  simp [Wire.verifies, h]
/-- The premises of InboundFramesCompleteAsJudged: a frame in work and none, a NEXT key that a frame of its entry
follows, a key bound, an echo of the running proof by its serial and one by another, and a frame that verifies
(`test_some_frame_verifies`). -/
theorem test_meets_InboundFramesCompleteAsJudged :
    (∃ w, (busy (.inbound 1)).engine.inWork = some w ∧ w.frame.flow = .inbound 1) ∧ base.engine.inWork = none
      ∧ (let d := withTunnel { inService with next := some ⟨true, KeyRecord.installed 2 4⟩ }
         (d.profileOf 3).followPeer = true ∧ (d.tunnel 3).state = .inService
           ∧ (d.tunnel 3).next = some ⟨true, KeyRecord.installed 2 4⟩)
      ∧ (let x := (busy (.inbound 1)).tunnel 3
         x.slotOf 0 = some .current ∧ x.key? .current = some { aKey 1 0 with bound := true })
      ∧ (∃ r, (proving .retry .stopFirst (.awaitEcho 1 0)).proofs.running = some r ∧ r.phase = .awaitEcho 1 0
        ∧ r.tunnel = 3 ∧ r.entry = 0)
      ∧ ([0, 0, 0, 1] : List Byte).take 4 = beBytes 4 (1 : BitVec 32).toNat
      ∧ ([0, 0, 0, 2] : List Byte).take 4 ≠ beBytes 4 (1 : BitVec 32).toNat :=
  ⟨⟨_, rfl, rfl⟩, rfl, ⟨by decide +kernel, by decide +kernel, by decide +kernel⟩,
    ⟨by decide +kernel, by decide +kernel⟩, ⟨_, rfl, rfl, rfl, rfl⟩, by decide +kernel, by decide +kernel⟩
theorem test_follow_promotes :
    let d := (withTunnel { inService with next := some ⟨true, KeyRecord.installed 2 4⟩ }).followTest 3 4
    (d.tunnel 3).current.map (fun c => (c.key.epoch, c.key.followed)) = some (2, .unreported (some 1)) := by
  decide +kernel
theorem test_echo_of_another_serial_strays :
    ((proving .retry .stopFirst (.awaitEcho 1 0)).handEcho 3 0 [0, 0, 0, 2]).proofs.running.map (·.strays)
      = some 1 := by decide +kernel
theorem test_flags_stand_before_the_dialogue :
    let x := withTunnel { inService with
      current := some ⟨.active, { aKey 2 0 with followed := .unreported (some 1) }⟩ }
    let n : Notice := ⟨some 3, 0, .dialogueIn .dialogue 2 9 0 [1]⟩
    let d := { x with key := { x.key with notices := [n] } }
    (d.finishInbound 0).key.notices = [⟨some 3, 0, .keyFollowed 2 .current (some 1)⟩, n]
      ∧ (d.finishInbound 1).key.notices = [n, ⟨some 3, 0, .keyFollowed 2 .current (some 1)⟩] := by decide +kernel
theorem test_no_frame_in_work : exec .inboundCompletion ⟨base, []⟩ = .next ⟨base, []⟩ := rfl

/-- A part with a derivation in progress for tunnel 3. -/
def deriving_ : Device :=
  { withTunnel { inService with
      state := .provisioned, current := none, inDerivation := true, next := some ⟨false, KeyRecord.installed 1 0⟩ } with
    keys := { base.keys with entries := [(0, .blank)], jobs := [⟨3, 1, 0, 5, some 7⟩] } }

/-- The premises of DerivationsCompleteInQueueOrder: a job and none; two directions, shops or epochs; one secret for two
derivations of one epoch. -/
theorem test_meets_DerivationsCompleteInQueueOrder :
    deriving_.keys.jobs = ⟨3, 1, 0, 5, some 7⟩ :: [] ∧ base.keys.jobs = []
      ∧ (KeyDirection.outbound ≠ .inbound ∧ (7 : BitVec 24) ≠ 8 ∧ (0 : Nat) ≠ 255)
      ∧ ∀ x, Config.suite.key x 5 7 255 = Config.suite.key x 5 7 255 := ⟨rfl, rfl, by decide, fun _ => rfl⟩
theorem test_derivation_completes :
    let s := exec .derivationComplete ⟨deriving_, []⟩
    ((after s).tunnel 3).next = some ⟨true, KeyRecord.installed 1 0⟩ ∧ ((after s).tunnel 3).inDerivation = false := by
  decide +kernel

/-! ### Keys -/

/-- A part whose tunnel 3 has a READY NEXT key of epoch 2 and a PREVIOUS key of epoch 9. -/
def keyed : Device :=
  withTunnel { inService with
    next := some ⟨true, KeyRecord.installed 2 4⟩, previous := some { aKey 9 5 with graceDeadline := some 0 } }

/-- The premises of InstallationsTakeTheSecret. -/
theorem test_meets_InstallationsTakeTheSecret :
    (∃ q, (posed serving .key 7 0 3 [2, 0, 2]).dev.Poses .key q 7) ∧ serving.keys.lowestFree = some 1 :=
  ⟨⟨_, poses_of_now (by decide +kernel)⟩, by decide +kernel⟩
theorem test_install_queues_a_job :
    let d := after (exec (.installKey .key) (posed serving .key 7 0 3 [255, 0, 2]))
    d.keys.jobs = [⟨3, 255, 1, 0, some 7⟩] ∧ (d.store.cell 2).state = .free ∧ d.key.reserved = 1 := by decide +kernel
theorem test_install_of_a_held_epoch :
    told (exec (.installKey .key) (posed serving .key 7 0 3 [1, 0, 2])) .key = some (.epochConflict, .none) := by
  decide +kernel
/-- The premises of PromotionsAdvanceTheKeys. -/
theorem test_meets_PromotionsAdvanceTheKeys :
    (∃ q, (posed keyed .key 10 0 3 [2]).dev.Poses .key q 10)
      ∧ (keyed.tunnel 3).next = some ⟨true, KeyRecord.installed 2 4⟩ :=
  ⟨⟨_, poses_of_now (by decide +kernel)⟩, by decide +kernel⟩
theorem test_promote :
    let x := (after (exec (.promote .key) (posed keyed .key 10 0 3 [2]))).tunnel 3
    x.next = none ∧ x.current.map (·.key.epoch) = some 2 ∧ x.previous.map (·.epoch) = some 1
      ∧ x.previous.bind (·.graceDeadline) = some 5000000 := by decide +kernel
theorem test_promotion_frees_the_previous_entry :
    let d := keyed.setEntry 5 .blank
    (d.promote 3).1.keys.entry 5 = .free ∧ (d.promote 3).1.keys.entry 0 = .blank
      ∧ (d.promote 3).2 = ⟨some 1, [9]⟩ := by decide +kernel
/-- A promotion beside a bound PREVIOUS key, and of an EXPIRED CURRENT key, bound and not. -/
theorem test_promotion_of_bound_and_expired_keys :
    let held := keyed.modTunnel 3 fun x => { x with previous := x.previous.map fun k => { k with bound := true } }
    let expired (b : Bool) := withTunnel { inService with
      next := some ⟨true, KeyRecord.installed 2 4⟩, current := some ⟨.expired, { aKey 1 0 with bound := b }⟩ }
    (held.promote 3).2 = ⟨none, [9, 1]⟩ ∧ (held.promote 3).1.keys.entry 0 = .free
      ∧ (((held.promote 3).1.tunnel 3).previous.map fun k => (k.epoch, k.retirePending)) = some (9, true)
      ∧ ((expired true).promote 3).2 = ⟨some 1, [1]⟩
      ∧ ((expired false).promote 3).2 = ⟨none, [1]⟩ ∧ ((expired false).promote 3).1.keys.entry 0 = .free := by
  decide +kernel
theorem test_promote_of_the_current :
    told (exec (.promote .key) (posed keyed .key 10 0 3 [1])) .key = some (.done, .alreadyCurrent) := by decide +kernel
theorem test_promote_of_no_key :
    told (exec (.promote .key) (posed keyed .key 10 0 3 [8])) .key = some (.noSuchEpoch, .none) := by decide +kernel
/-- The premises of KeysAreRetiredOnRequest. -/
theorem test_meets_KeysAreRetiredOnRequest :
    (∃ q, (posed keyed .key 8 0 3 []).dev.Poses .key q 8) ∧ ∃ q, (posed keyed .key 11 0 3 []).dev.Poses .key q 11 :=
  ⟨⟨_, poses_of_now (by decide +kernel)⟩, _, poses_of_now (by decide +kernel)⟩
theorem test_discard :
    ((after (exec (.discardNext .key) (posed keyed .key 8 0 3 []))).tunnel 3).next = none := by decide +kernel
theorem test_retire :
    ((after (exec (.retirePrevious .key) (posed keyed .key 11 0 3 []))).tunnel 3).previous = none := by decide +kernel
/-- A part whose tunnel 3 holds a CURRENT key with two flags unreported. -/
def flagged : Device :=
  withTunnel { inService with
    current := some ⟨.expired, { aKey 1 0 with renewal := .unreported .age, expired := .unreported .age }⟩ }

/-- The clauses of KeyDeadlinesExpire: each deadline come, and none; a flag that waits in a slot, with a place free and
with none. -/
theorem test_meets_KeyDeadlinesExpire :
    (∃ k, (keyed.tunnel 3).previous = some k ∧ k.graceDeadline = some keyed.clock)
      ∧ (∃ c, (keyed.tunnel 3).current = some c ∧ c.key.softDeadline = some 43200000000
        ∧ c.key.hardDeadline = some 86400000000)
      ∧ (base.tunnel 3).previous = none ∧ (base.tunnel 3).current = none
      ∧ ((flagged.tunnel 3).key? .current).isSome ∧ flagged.key.notices.length < 64
      ∧ 64 ≤ { flagged.key with
        notices := List.replicate 64 ⟨none, 0, .deviceFault .keystoreLow aLatch⟩ }.notices.length :=
  ⟨⟨_, rfl, rfl⟩, ⟨_, rfl, rfl, rfl⟩, rfl, rfl, by decide +kernel⟩
theorem test_flags_wait_in_scan_order :
    flagged.waitingFlags = [(3, .current, .expired), (3, .current, .renewal)]
      ∧ flagged.offerFlags.key.notices
        = [⟨some 3, 0, .keyExpired 1 .current .age 0⟩, ⟨some 3, 0, .renewalDue 1 .current .age 0 (some 0)⟩] := by
  decide +kernel
theorem test_grace_expires : ((after (exec (.graceExpiry 3) ⟨keyed, []⟩)).tunnel 3).previous = none := by decide +kernel
theorem test_soft_age_expires :
    ((after (exec (.softAgeExpiry 3) ⟨{ keyed with clock := 43200000000 }, []⟩)).tunnel 3).current.map (·.key.renewal)
      = some (.reported .age) := by decide +kernel
theorem test_hard_age_expires :
    let x := (after (exec (.hardAgeExpiry 3) ⟨{ keyed with clock := 86400000000 }, []⟩)).tunnel 3
    x.current.map (·.state) = some .expired ∧ x.outCauses.keyExpired = true
      ∧ x.condition.latches.keyExpired.isSome = true := by decide +kernel
theorem test_soft_age_not_come : exec (.softAgeExpiry 3) ⟨keyed, []⟩ = .next ⟨keyed, []⟩ := rfl

/-! ### Tunnels and profiles -/

theorem test_meets_OpenedTunnelsAreProvisioned :
    ∃ q, (posed base .operations 12 0 479 [0, 0, 1, 7]).dev.Poses .operations q 12 :=
  ⟨_, poses_of_now (by decide +kernel)⟩
theorem test_open :
    let x := (after (exec (.openTunnel .operations) (posed base .operations 12 0 479 [0, 0, 1, 7]))).tunnel 479
    x.state = .provisioned ∧ x.shop = some 1 ∧ x.profile = some 7 := by decide +kernel
theorem test_open_of_a_shop_in_use :
    told (exec (.openTunnel .operations) (posed serving .operations 12 0 4 [0, 0, 7, 0])) .operations
      = some (.shopInUse, .none) := by decide +kernel
/-- The premises of ClosedTunnelsLoseTheirFrames: a request, a closing that waits, and one that does not, with a key and
an entry of no key. -/
theorem test_meets_ClosedTunnelsLoseTheirFrames :
    (∃ q, (posed serving .operations 13 0 3 []).dev.Poses .operations q 13)
      ∧ ((withTunnel { inService with state := .closing, inDerivation := true }).tunnel 3).state = .closing
      ∧ (let d := withTunnel { inService with state := .closing }
         (d.tunnel 3).inDerivation = false ∧ d.engine.inWork = none ∧ (d.tunnel 3).key? .current = some (aKey 1 0)
           ∧ (aKey 1 0).entry ≠ 1) :=
  ⟨⟨_, poses_of_now (by decide +kernel)⟩, rfl, rfl, rfl, rfl, by decide⟩
theorem test_closing_ends :
    let d := (withTunnel { inService with state := .closing, closeTag := some 7 }).endClosing 3
    d.keys.entries = [] ∧ d.tunnel 3 = Tunnel.initial
      ∧ d.operations.responses = [⟨⟨7, 13, .done, .none, .empty⟩, 0, 1⟩] := by decide +kernel
theorem test_removed_frames_end_the_rescue :
    let b := busy (.inbound 1)
    let d := { b with engine := { b.engine with mode := .rescue .settleFirst 5 } }.removeFrames 3
    d.engine.bulk = [] ∧ d.engine.mode = .base .settleFirst ∧ (d.store.cell 2).state = .done .traffic
      ∧ (d.tunnel 3).frameCount = 1 := by decide +kernel
theorem test_close :
    let s := exec (.closeTunnel .operations) (posed serving .operations 13 0 3 [])
    (after s).tunnel 3 = Tunnel.initial ∧ told s .operations = some (.done, .none) := by decide +kernel
theorem test_close_waits_for_the_frame_in_work :
    let s := exec (.closeTunnel .operations) (posed (busy (.outbound .data)) .operations 13 0 3 [])
    ((after s).tunnel 3).state = .closing ∧ told s .traffic = some (.done, .tunnelClosed) := by decide +kernel
/-- The clauses of HoldsAreSetAndCleared: a bad operand, a wrong state, holds set, and a proof ended. -/
theorem test_meets_HoldsAreSetAndCleared :
    (∃ q, (posed serving .operations 14 0 3 [3, 0]).dev.Poses .operations q 14 ∧ 2 < q.num 0 1)
      ∧ (∃ q, (posed serving .operations 14 0 3 [1, 2]).dev.Poses .operations q 14 ∧ q.num 0 1 ≤ 2 ∧ q.num 1 1 = 2)
      ∧ (base.tunnel 3).state = .empty
      ∧ ∃ r, (proving .operations .stopFirst .waitCell).proofs.running = some r ∧ r.tunnel = 3
        ∧ r.purpose = .operations :=
  ⟨⟨_, poses_of_now (by decide +kernel), by decide +kernel⟩,
    ⟨_, poses_of_now (by decide +kernel), by decide +kernel⟩, rfl, _, rfl, rfl, rfl⟩
theorem test_hold_set :
    ((after (exec (.setHolds .operations) (posed serving .operations 14 0 3 [1, 2]))).tunnel 3).outCauses
      = ⟨true, false, false⟩ := by decide +kernel
theorem test_hold_ends_a_proof :
    let s := posed (proving .operations .stopFirst (.inFlight 1)) .operations 14 0 3 [1, 0]
    (after (exec (.setHolds .operations) s)).proofs.running = none := by decide +kernel
/-- The operands of a WRITE_PROFILE of each group of profile 7, the values at ends of their ranges. -/
def profileWrites : List (List Byte) :=
  [[7, 0, 0, 0, 0, 0, 0, 1, 1, 0, 0, 0, 0, 0, 0, 0, 0, 60, 0, 39, 141, 0, 0, 100, 1],
    [7, 1, 1, 44, 14, 16, 60, 255, 255, 0, 0, 0, 20, 8], [7, 2, 0, 0, 2, 88, 7]]

/-- The premises of ProfilesAreWrittenByGroup: each group at ends of its ranges, a group that is none, and a CURRENT key
to be examined again. -/
theorem test_meets_ProfilesAreWrittenByGroup :
    (∀ operands ∈ [7, 3] :: profileWrites, ∃ q, (posed base .operations 16 0 0 operands).dev.Poses .operations q 16)
      ∧ ∃ c, (serving.tunnel 3).current = some c ∧ c.key.ageStart = some 0 :=
  ⟨fun operands h => ⟨_, poses_of_now (by revert operands; decide +kernel)⟩, _, rfl, rfl⟩
theorem test_write_of_each_group :
    ∀ operands ∈ profileWrites, ((groupOf (operands.getD 1 0).toNat).bind fun g =>
      Config.factoryProfile.written g (Request.ofRecord (record 16 0 0 operands))).isSome = true := by decide +kernel
theorem test_reexamine_expires :
    let d := { serving with clock := 86400000000 }.reexamineTunnel 3
    (d.tunnel 3).current.map (·.state) = some .expired := by decide +kernel
theorem test_reexamine_latches :
    let d := { serving with clock := 86400000000 }.reexamineTunnel 3
    (d.latch 3 .keyExpired).isSome = true := by decide +kernel
theorem test_write_profile :
    let d := after (exec (.writeProfile .operations) (posed base .operations 16 0 0 [7, 2, 0, 0, 2, 88, 7]))
    (d.profileAt 7).holdTime = 600 ∧ (d.profileAt 7).report.tunnelFailed = true ∧ (d.profileAt 6).holdTime = 30 := by
  decide +kernel
theorem test_write_profile_out_of_range :
    told (exec (.writeProfile .operations) (posed base .operations 16 0 0 [7, 2, 0, 0, 2, 89, 7])) .operations
      = some (.badRequest, .none) := by decide +kernel

/-! ### Reads -/

/-- The premises of TunnelReadsTellTheRecord. -/
theorem test_meets_TunnelReadsTellTheRecord :
    (∃ q, (posed serving .traffic 5 0 3 []).dev.Poses .traffic q 5)
      ∧ (∃ q, (posed serving .operations 15 0 3 []).dev.Poses .operations q 15)
      ∧ (∃ q, (posed serving .key 9 0 3 []).dev.Poses .key q 9)
      ∧ ∃ q, (posed serving .operations 17 0 0 [7, 2]).dev.Poses .operations q 17 :=
  ⟨⟨_, poses_of_now (by decide +kernel)⟩, ⟨_, poses_of_now (by decide +kernel)⟩, ⟨_, poses_of_now (by decide +kernel)⟩,
    _, poses_of_now (by decide +kernel)⟩
theorem test_read_service :
    ((after (exec (.readService .traffic) (posed serving .traffic 5 0 3 []))).traffic.responses.map (·.response.body))
      = [.service .inService .full ⟨false, false, false⟩ false (some 1)] := by decide +kernel
theorem test_read_profile_of_no_group :
    told (exec (.readProfile .operations) (posed base .operations 17 0 0 [7, 3])) .operations
      = some (.badRequest, .none) := by decide +kernel
/-- The premises of OperationsReadsTellTheState. -/
theorem test_meets_OperationsReadsTellTheState :
    ∀ code ∈ [18, 20, 21, 26, 31], ∃ q, (posed serving .operations code 0 3 []).dev.Poses .operations q code :=
  fun code h => ⟨_, poses_of_now (by revert code; decide)⟩

/-! ### Faults -/

/-- A part with a set latch and its notice on tunnel 3, and a set device latch. -/
def faulted : Device :=
  { withTunnel { inService with
      condition := { Condition.initial with
        runs := ⟨3, 0, 0⟩, latches := { Condition.initial.latches with authStorm := some aLatch } } } with
    faults := { base.faults with keystoreLow := some aLatch }
    operations := { base.operations with notices := [⟨some 3, 9, .tunnelFault .authStorm aLatch .inService⟩] } }

/-- A part in which a latch of tunnel 3 and a device latch wait for a place. -/
def untold : Device :=
  { withTunnel { inService with
      condition := { Condition.initial with
        latches := { Condition.initial.latches with shopSilent := some { aLatch with report := .unreported } } } } with
    faults := { base.faults with keystoreLow := some { aLatch with report := .unreported } } }

/-- The clauses of FaultsLatchOnce: a latch set, and clear, of a tunnel and of the device; one of each that waits; a
proof that a cause reaches, and one that it does not; a key cause present, and one newly added. -/
theorem test_meets_FaultsLatchOnce :
    faulted.latch 3 .authStorm = some aLatch ∧ faulted.latch 3 .shopSilent = none
      ∧ faulted.faults.get .keystoreLow = some aLatch ∧ faulted.faults.get .monitorOverflow = none
      ∧ untold.faults.get .keystoreLow = some { aLatch with report := .unreported }
      ∧ untold.latch 3 .shopSilent = some { aLatch with report := .unreported }
      ∧ ((proving .operations .stopFirst .waitCell).proofs.running.map fun r => (r.tunnel, onlyOperations r.purpose))
        = some (3, true)
      ∧ ((proving .retry .stopFirst .waitCell).proofs.running.map fun r => (r.tunnel, onlyOperations r.purpose))
        = some (3, false)
      ∧ (withTunnel { inService with outCauses := ⟨false, true, false⟩ }).proofs.running = none
      ∧ ((proving .retry .stopFirst .waitCell).tunnel 3).outCauses.keySpent = false := by decide +kernel
theorem test_a_new_key_cause_ends_the_proof :
    let d := proving .retry .stopFirst .waitCell
    (d.addKeyCause 3 .spent).proofs.running = none
      ∧ (d.addKeyCause 3 .spent).proofs.last.map (·.result) = some .aborted
      ∧ ((d.modTunnel 3 fun x => { x with outCauses := ⟨false, true, false⟩ }).addKeyCause 3 .spent).proofs.running
        = d.proofs.running := by decide +kernel
theorem test_faults_wait_in_scan_order :
    untold.waitingFaults = [.device .keystoreLow, .tunnel 3 .shopSilent]
      ∧ ((untold.faultScan 1).operations.notices.map (·.tunnel)) = [none] := by decide +kernel
/-- The clauses of AcknowledgedLatchesClear: a tunnel's latch and a device latch. -/
theorem test_meets_AcknowledgedLatchesClear :
    (∃ q, (posed faulted .operations 19 0 3 [0]).dev.Poses .operations q 19 ∧ q.flags = 0)
      ∧ ∃ q, (posed faulted .operations 19 1 3 [7]).dev.Poses .operations q 19 ∧ q.flags = 1 :=
  ⟨⟨_, poses_of_now (by decide +kernel), by decide +kernel⟩, _, poses_of_now (by decide +kernel), by decide +kernel⟩
theorem test_acknowledge :
    let d := after (exec (.ackFault .operations) (posed faulted .operations 19 0 3 [0]))
    d.latch 3 .authStorm = none ∧ d.operations.notices = [] ∧ (d.tunnel 3).condition.runs = ⟨0, 0, 0⟩ := by
  decide +kernel
theorem test_acknowledge_the_device :
    (after (exec (.ackFault .operations) (posed faulted .operations 19 1 480 [7]))).faults.keystoreLow = none
      ∧ told (exec (.ackFault .operations) (posed faulted .operations 19 1 0 [11])) .operations
        = some (.badRequest, .none) := by decide +kernel

/-- A part with the three timers of tunnel 3 at the clock's value. -/
def timed : Device :=
  withTunnel { inService with
    condition := { Condition.initial with
      counts := ⟨20, 0, 0⟩, runs := ⟨2, 0, 0⟩, intervalStart := some 0, intervalDeadline := some 0
      silenceDeadline := some 0, keepaliveDeadline := some 0 } }

/-- The clauses of ConditionTimersExpire: each deadline come, and none. -/
theorem test_meets_ConditionTimersExpire :
    (timed.tunnel 3).condition.intervalDeadline = some timed.clock
      ∧ (timed.tunnel 3).condition.silenceDeadline = some timed.clock
      ∧ (timed.tunnel 3).condition.keepaliveDeadline = some timed.clock
      ∧ (base.tunnel 3).condition.intervalDeadline = none ∧ (base.tunnel 3).condition.silenceDeadline = none
      ∧ (base.tunnel 3).condition.keepaliveDeadline = none := by decide +kernel
theorem test_interval_latches_a_storm :
    let d := after (exec (.intervalExpiry 3) ⟨timed, []⟩)
    (d.latch 3 .authStorm).isSome = true ∧ (d.tunnel 3).state = .isolated
      ∧ (d.tunnel 3).condition.counts = ⟨0, 0, 0⟩ := by decide +kernel
theorem test_silence_latches :
    ((after (exec (.silenceExpiry 3) ⟨timed, []⟩)).latch 3 .shopSilent).isSome = true := by decide +kernel
theorem test_keepalive_is_built :
    let d := after (exec (.keepaliveExpiry 3) ⟨timed, []⟩)
    (d.tunnel 3).condition.outstanding = true ∧ (d.engine.inWork.map fun w => w.frame.party) = some .conditionMonitor :=
  by decide +kernel

/-! ### Proofs -/

/-- The clauses of ProofDeadlinesExpire: a hold come and none, an echo deadline come and none, a proof on its first and
on its last active entry, with one round asked for and with none. -/
theorem test_meets_ProofDeadlinesExpire :
    ((withTunnel { inService with holdDeadline := some 0 }).tunnel 3).holdDeadline = some base.clock
      ∧ (base.tunnel 3).holdDeadline = none
      ∧ (∃ r, (proving .operations .stopFirst (.awaitEcho 1 0)).proofs.running = some r
        ∧ r.phase = .awaitEcho 1 base.clock ∧ r.entry = 0 ∧ r.requested = 1)
      ∧ base.proofs.running = none
      ∧ (∀ k < 8, (base.proofs.patterns.getD k ⟨0, 0, 0⟩).length ≠ 0 ↔ k ≤ 1)
      ∧ { aProof .operations .continuous .waitCell with entry := 1, requested := 0 }.entry = 1 :=
  ⟨rfl, rfl, ⟨_, rfl, rfl, rfl, rfl⟩, rfl, by decide +kernel, rfl⟩
theorem test_hold_expires :
    let d := after (exec (.holdExpiry 3) ⟨withTunnel { inService with state := .isolated, holdDeadline := some 0 }, []⟩)
    (d.proofs.running.map fun r => (r.tunnel, r.purpose)) = some (3, .retry) ∧ (d.tunnel 3).holdDeadline = none := by
  decide +kernel
theorem test_echo_times_out :
    let d := after (exec .echoDeadlineExpiry ⟨proving .operations .stopFirst (.awaitEcho 1 0), []⟩)
    d.proofs.last.map (·.result) = some .missed ∧ d.proofs.capture.map (·.kind) = some .timeout := by decide +kernel
theorem test_echo_times_out_in_continuous :
    let d := after (exec .echoDeadlineExpiry ⟨proving .operations .continuous (.awaitEcho 1 0), []⟩)
    (d.proofs.running.map fun r => (r.entry, r.misses.sum)) = some (1, 1) := by decide +kernel
/-- The premises of ProofsStartAndStopOnRequest. -/
theorem test_meets_ProofsStartAndStopOnRequest :
    (∃ q, (posed serving .operations 22 0 3 [0, 0, 255]).dev.Poses .operations q 22)
      ∧ ∃ q, (posed (proving .operations .continuous .waitCell) .operations 23 0 0 []).dev.Poses .operations q 23 :=
  ⟨⟨_, poses_of_now (by decide +kernel)⟩, _, poses_of_now (by decide +kernel)⟩
theorem test_start_proof :
    let d := after (exec (.startProof .operations) (posed serving .operations 22 0 3 [0, 0, 255]))
    (d.proofs.running.map (·.phase)) = some (.inFlight 1) ∧ (d.tunnel 3).underProof = true ∧ d.proofs.serial = 1 := by
  decide +kernel
theorem test_start_proof_of_no_round :
    told (exec (.startProof .operations) (posed serving .operations 22 0 3 [0, 0, 0])) .operations
      = some (.badRequest, .none) := by decide +kernel
theorem test_stop_proof :
    (after (exec (.stopProof .operations) (posed (proving .operations .continuous (.inFlight 1)) .operations 23 0 0
      []))).proofs.last.map (·.result) = some .stopped := by decide +kernel
theorem test_stop_of_a_retry_proof :
    told (exec (.stopProof .operations) (posed (proving .retry .stopFirst (.inFlight 1)) .operations 23 0 0 []))
      .operations = some (.wrongState, .none) := by decide +kernel
/-- The premise of ProofsEndInOrder. -/
theorem test_meets_ProofsEndInOrder :
    ∃ r, (proving .retry .stopFirst .waitCell).proofs.running = some r := ⟨_, rfl⟩
/-- The premises of RestoredTunnelsAreRetried: a request, a start that passes, and one that does not. -/
theorem test_meets_RestoredTunnelsAreRetried :
    (∃ q, (posed (withTunnel { inService with state := .failed }) .operations 24 0 3 []).dev.Poses .operations q 24)
      ∧ (let d := { serving with proofs := { base.proofs with retry := [3] } }
         d.proofs.running = none ∧ d.proofs.retry = 3 :: [] ∧ d.operations.notices.length < 128)
      ∧ serving.proofs.retry = [] := ⟨⟨_, poses_of_now (by decide +kernel)⟩, by decide +kernel, rfl⟩
theorem test_restore :
    let s := posed (withTunnel { inService with state := .failed, retryCount := 4 }) .operations 24 0 3 []
    let d := after (exec (.restoreTunnel .operations) s)
    (d.tunnel 3).state = .isolated ∧ (d.tunnel 3).retryCount = 0 ∧ d.proofs.running.isSome = true := by decide +kernel
theorem test_retry_start :
    let s : State :=
      ⟨{ withTunnel { inService with state := .isolated } with proofs := { base.proofs with retry := [3] } }, []⟩
    (after (exec .retryStart s)).proofs.running.map (·.purpose) = some .retry := by decide +kernel
/-- The clauses of ProofFramesAreBuiltWhenRoomAppears: a proof that waits, and none. -/
theorem test_meets_ProofFramesAreBuiltWhenRoomAppears :
    (∃ r, (proving .operations .stopFirst .waitCell).proofs.running = some r ∧ r.phase = .waitCell)
      ∧ base.proofWaits = false := ⟨⟨_, rfl, rfl⟩, rfl⟩
theorem test_build_attempt_wraps_the_serial :
    let d := proving .operations .stopFirst .waitCell
    let d := { d with proofs := { d.proofs with serial := 0xFFFFFFFF } }
    (after (exec .proofBuildAttempt ⟨d, []⟩)).proofs.serial = 1 := by decide +kernel
/-- The premise of PatternsAreWrittenBetweenProofs. -/
theorem test_meets_PatternsAreWrittenBetweenProofs :
    ∃ q, (posed base .operations 25 0 0 [7, 5, 192, 0, 255, 0, 255]).dev.Poses .operations q 25 :=
  ⟨_, poses_of_now (by decide +kernel)⟩
theorem test_write_pattern :
    (after (exec (.writePattern .operations) (posed base .operations 25 0 0 [7, 5, 192, 0, 255, 0, 255]))).proofs.pattern
      7 = ⟨1472, 255, 255⟩ := by decide +kernel
theorem test_write_pattern_too_short :
    told (exec (.writePattern .operations) (posed base .operations 25 0 0 [7, 0, 15, 0, 0, 0, 0])) .operations
      = some (.badRequest, .none) := by decide +kernel

/-! ### The monitor bank -/

/-- The premises of MonitorsTakeTheirProgram: operands that name no source, operands that name a program, of monitor 11
at the largest preload, and the refusals. -/
theorem test_meets_MonitorsTakeTheirProgram :
    (∃ q, (posed base .operations 27 0 0 [0, 25]).dev.Poses .operations q 27 ∧ q.program = none ∧ q.num 1 1 = 25)
      ∧ (∃ q m, (posed base .operations 27 0 0 [11, 20, 0, 0, 0, 1, 0, 1, 129, 1, 0, 255, 255, 255, 255, 255]).dev.Poses
          .operations q 27 ∧ q.program = some m ∧ q.num 0 1 = 11 ∧ q.num 10 6 = 2 ^ 40 - 1
          ∧ [q.num 1 1, q.num 2 1, q.num 5 1, q.num 6 1, q.num 7 2, q.num 9 1] = [20, 0, 1, 0, 385, 1] ∧ m.filter = .all
          ∧ m.source = .level .settleOccupancy ∧ m.mode = .duration ∧ m.compare = .atOrAbove ∧ m.threshold = 385
          ∧ m.freeze = true)
      ∧ (∃ q m, (posed base .operations 27 0 0 [0, 1, 1, 1, 224]).dev.Poses .operations q 27 ∧ q.program = some m
          ∧ m.filter = .one 480)
      ∧ ∃ q m, (posed base .operations 27 0 0 [0, 1, 2, 0, 8]).dev.Poses .operations q 27 ∧ q.program = some m
          ∧ m.filter = .profile 8 :=
  ⟨⟨_, poses_of_now (by decide +kernel), by decide +kernel⟩,
    ⟨_, _, poses_of_now (by decide +kernel), rfl, by decide +kernel⟩,
    ⟨_, _, poses_of_now (by decide +kernel), rfl, rfl⟩, _, _, poses_of_now (by decide +kernel), rfl, rfl⟩
theorem test_set_monitor :
    ((after (exec (.setMonitor .operations) (posed base .operations 27 0 0
      [11, 20, 0, 0, 0, 2, 1, 1, 129, 1, 0, 0, 0, 0, 0, 9]))).bank.monitors.getD 11 Monitor.initial)
      = ⟨9, false, .level .settleOccupancy, .all, .edge, .below, 385, true, some true⟩ := by decide +kernel
theorem test_set_monitor_of_no_tunnel :
    told (exec (.setMonitor .operations) (posed base .operations 27 0 0 [0, 1, 1, 1, 224])) .operations
      = some (.noTunnel, .none) := by decide +kernel
/-- The premises of TheBankFreezesThawsAndClears, on the operations port and on another. -/
theorem test_meets_TheBankFreezesThawsAndClears :
    (∀ code ∈ [28, 29, 30], ∃ q, (posed base .operations code 0 0 []).dev.Poses .operations q code)
      ∧ ∃ q, (posed base .key 28 0 0 []).dev.Offers .key q 1 ∧ q.code = 28 :=
  ⟨fun code h => ⟨_, poses_of_now (by revert code; decide)⟩, _, ⟨rfl, rfl, by decide +kernel⟩, by decide +kernel⟩
theorem test_freeze :
    (after (exec (.freezeMonitors .operations) (posed base .operations 28 0 0 []))).bank.state = .frozen .request := by
  decide +kernel
theorem test_thaw_of_a_counting_bank :
    told (exec (.thawMonitors .operations) (posed base .operations 29 0 0 [])) .operations
      = some (.done, .alreadyCounting) := by decide +kernel
theorem test_clear :
    let d := { base with bank := { base.bank with elapsed := 5 } }
    (after (exec (.clearMonitors .operations) (posed d .operations 30 0 0 []))).bank.elapsed = 0 := by decide +kernel

/-! ### Invariants -/

/-- The premises of StepsKeepTheCellStoreInOrder, StepsKeepQueuesWithinCapacity, EveryEventIsSettled,
StepsKeepFreeCellsZero, StepsKeepAPlaceForEveryResponse and StepsKeepGeneratedPlaces, all together: a part with a frame
in work, a frame that waits, a claimed cell and a byte stored, whose step completes the frame in work. -/
theorem test_meets_the_step_invariants :
    let s : State := ⟨busy (.outbound .data), [.outboundCompletion]⟩
    (∃ t, step s = .next t) ∧ s.dev.store.Ok ∧ s.dev.store.FreeZero ∧ s.dev.FramesHold ∧ s.dev.Bounded
      ∧ s.dev.Settled ∧ s.dev.PlacesKept ∧ s.dev.NoticesKept := by
  refine ⟨⟨_, rfl⟩, ?_, ?_, ⟨?_, ?_, ?_, ?_⟩, ⟨?_, ?_, ?_, ?_, ?_, ?_, ?_⟩,
    ⟨rfl, (fun h => by cases h), Or.inl (by decide +kernel)⟩, ⟨?_, ?_, ?_⟩, ?_, ?_, ?_⟩
  · unfold CellStore.Ok
    decide +kernel
  · intro n b hf hb
    show (if 0 = n * 256 + b then (5 : Byte) else 0) = 0
    split
    · have : n = 0 := by omega
      subst this
      cases hf
    · rfl
  · decide +kernel
  · rintro w ⟨⟩
    decide +kernel
  · decide +kernel
  · intro f hf
    have : f = aFrame (.outbound .data) [2] ∨ f = aFrame (.outbound .data) [1] := by
      simpa [Engine.held, Engine.waiting, busy, base_queues] using hf
    rcases this with rfl | rfl <;> simp [Frame.Fits, Frame.size, aFrame]
  all_goals first | decide +kernel | (intro p; cases p <;> decide +kernel) | skip
  · intro t ht
    show (SMap.get Tunnel.initial [(3, _)] t).closeTag = none
    simp only [SMap.get]
    rw [if_neg (by omega)]
    rfl

/-- The only key record of a part with one frame in work. -/
theorem busy_holds (flow : Flow) (t : Nat) (s : Slot) (k : KeyRecord) (h : (busy flow).Holds t s k) :
    t = 3 ∧ s = .current ∧ k = { aKey 1 0 with bound := true } := by
  by_cases e : t = 3
  · subst e
    cases s <;> cases h
    exact ⟨rfl, rfl, rfl⟩
  · have i : (busy flow).tunnel t = Tunnel.initial := SMap.get_tail _ _ _ _ _ fun x => e x.symm
    unfold Device.Holds at h
    rw [i] at h
    cases s <;> cases h

/-- The premise of StepsKeepTheCellStoreInOrder about the key store, with a key bound to the frame in work. -/
theorem test_meets_KeysKept :
    (busy (.outbound .data)).KeysKept ∧ ∃ t, step ⟨busy (.outbound .data), [.outboundCompletion]⟩ = .next t := by
  have here : (busy (.outbound .data)).Holds 3 .current { aKey 1 0 with bound := true } := rfl
  have idle (t : Nat) : ((busy (.outbound .data)).tunnel t).next = none := by
    cases h : ((busy (.outbound .data)).tunnel t).next with
    | none => rfl
    | some n =>
      have g := busy_holds (.outbound .data) t .next n.key (by simp [Device.Holds, Tunnel.key?, h])
      cases g.2.1
  refine ⟨⟨fun e => ⟨fun h => ⟨3, .current, _, here, ?_⟩, ?_⟩, ?_, ?_, ?_, ?_, ?_, ?_, ?_, ?_, ?_⟩, _, rfl⟩
  · by_cases x : e = 0
    · exact x.symm
    · exact absurd (SMap.get_tail KeyEntry.free .blank 0 e [] fun y => x y.symm) h
  · rintro ⟨t, s, k, h, rfl⟩
    obtain ⟨-, -, rfl⟩ := busy_holds _ _ _ _ h
    decide
  · intro t s k u r m h g _
    obtain ⟨rfl, rfl, -⟩ := busy_holds _ _ _ _ h
    obtain ⟨rfl, rfl, -⟩ := busy_holds _ _ _ _ g
    exact ⟨rfl, rfl⟩
  · intro t s k h
    obtain ⟨-, -, rfl⟩ := busy_holds _ _ _ _ h
    decide
  · intro j h; cases h
  · exact List.nodup_nil
  · intro t n h; rw [idle] at h; cases h
  · intro t
    refine ⟨fun h => ?_, fun ⟨n, h, _⟩ => by rw [idle] at h; cases h⟩
    by_cases e : t = 3
    · subst e; cases h
    · have i : (busy (.outbound .data)).tunnel t = Tunnel.initial := SMap.get_tail _ _ _ _ _ fun x => e x.symm
      rw [i] at h; cases h
  · intro t s k h
    obtain ⟨rfl, rfl, rfl⟩ := busy_holds _ _ _ _ h
    exact ⟨fun _ => ⟨_, rfl, rfl, rfl⟩, fun _ => rfl⟩
  · rintro w ⟨⟩
    exact ⟨_, _, here, rfl⟩
  · intro t s k h g
    obtain ⟨-, -, rfl⟩ := busy_holds _ _ _ _ h
    cases g

/-- A part whose retry queue holds tunnel 3. -/
def retrying : Device :=
  { withTunnel { inService with state := .isolated } with proofs := { base.proofs with retry := [3] } }

theorem retrying_tunnel (t : Nat) (h : t ≠ 3) : retrying.tunnel t = Tunnel.initial :=
  SMap.get_tail _ _ _ _ _ fun x => h x.symm

/-- The premises of StepsKeepQueuesWithinCapacity about the retry queue, with a tunnel in it. -/
theorem test_meets_RetryKept :
    retrying.RetryKept ∧ 3 ∈ retrying.proofs.retry ∧ ∃ t, step ⟨retrying, [.retryStart]⟩ = .next t := by
  refine ⟨⟨by decide, ?_, ?_, ?_, ?_, ?_⟩, by decide, _, rfl⟩
  · intro t h
    obtain rfl : t = 3 := by simpa [retrying] using h
    exact ⟨rfl, rfl⟩
  · rintro r ⟨⟩
  · intro t h
    by_cases e : t = 3
    · subst e; rfl
    · rw [retrying_tunnel t e] at h; cases h
  · intro t h
    by_cases e : t = 3
    · subst e; exact .inr (.inl (by decide))
    · rw [retrying_tunnel t e] at h; cases h
  · intro t h
    rw [retrying_tunnel t (by omega)]; rfl

/-- The offers of an operations port reset start no RETRY proof, with the engine IDLE, a tunnel waiting and places free;
the retry start test that comes after them does. -/
theorem test_port_reset_leaves_the_retry_queue :
    let d := retrying.resetOffers .operations
    d.proofs = retrying.proofs ∧ d.operations.notices = [] ∧ (after (exec .retryStart ⟨d, []⟩)).proofs.retry = [] := by
  decide +kernel

/-- The premises of SettingsAndClockChangeOnlyByTheirCommands. -/
theorem test_meets_SettingsAndClockChangeOnlyByTheirCommands :
    (∃ t, exec (.statusRead .key) ⟨base, []⟩ = .next t) ∧ ∃ t, exec .deviceClockAdvance ⟨base, []⟩ = .next t :=
  ⟨⟨_, rfl⟩, _, rfl⟩
/-- The premises of QuietEventsEndInTheBank. -/
theorem test_meets_QuietEventsEndInTheBank :
    base.Quiet ∧ (∀ m ∈ base.bank.monitors, m.mode ≠ .edge) ∧ base.bank.freezeDue = false :=
  ⟨⟨⟨rfl, fun _ => rfl, Or.inl (by decide +kernel)⟩, rfl⟩, by decide +kernel, rfl⟩
/-- The premises of RequestsThatStoreNothing. -/
theorem test_meets_RequestsThatStoreNothing :
    requestTaken (.promote .key) = some (.key, 10) ∧ keyed.Quiet ∧ keyed.proofs.retry = []
      ∧ ∃ t, exec (.promote .key) (posed keyed .key 10 0 3 [2]) = .next t :=
  ⟨rfl, ⟨⟨rfl, fun _ => rfl, Or.inl (by decide +kernel)⟩, rfl⟩, rfl, _, rfl⟩

end Sys2Proof.Tests
end

/-! PROOF. The replay window (R78): its five cases, and what an inbound frame that fails leaves of the key records. -/
section

namespace Sys2Proof.Machine

/-! ### The judgement by its cases -/

/-- A number above the highest passes, and the set keeps what still lies in the window. -/
theorem KeyRecord.judge_of_highest_lt {k : KeyRecord} {s : Nat} (h : k.highest < s) :
    k.judge s = some { k with
      highest := s
      accepted := (if k.highest = 0 then k.accepted else k.highest :: k.accepted).filter fun n =>
        decide (s ≤ n + 63) } :=
  if_pos h

/-- A number in the window below the highest, not accepted before, passes and is put in its place. -/
theorem KeyRecord.judge_of_unseen {k : KeyRecord} {s : Nat} (below : s < k.highest) (pos : 1 ≤ s)
    (near : k.highest ≤ s + 63) (unseen : s ∉ k.accepted) :
    k.judge s = some { k with accepted := insertDown s k.accepted } := by
  unfold KeyRecord.judge
  rw [if_neg (Nat.lt_asymm below), if_pos ⟨pos, below, near, unseen⟩]

/-- The numbers that a window turns down: 0, the highest, those that lie too far below it, and those of the set. -/
theorem KeyRecord.judge_eq_none_iff (k : KeyRecord) (s : Nat) :
    k.judge s = none ↔ s ≤ k.highest ∧ (s = 0 ∨ s = k.highest ∨ s + 63 < k.highest ∨ s ∈ k.accepted) := by
  by_cases above : k.highest < s
  · simp [judge_of_highest_lt above, Nat.not_le_of_lt above]
  · unfold KeyRecord.judge
    rw [if_neg above, ite_eq_right_iff]
    by_cases seen : s ∈ k.accepted
    · simp [seen, Nat.le_of_not_lt above]
    · simp only [seen, not_false_eq_true, and_true, or_false, reduceCtorEq, imp_false]
      omega

/-! ### The key records of a tunnel -/

/-- The key records of a tunnel, in its three slots. -/
def Tunnel.slots (x : Tunnel) : Option NextKey × Option CurrentKey × Option KeyRecord := (x.next, x.current, x.previous)

theorem Tunnel.slots_eq_iff (x y : Tunnel) :
    y.slots = x.slots ↔ y.next = x.next ∧ y.current = x.current ∧ y.previous = x.previous := by
  simp [Tunnel.slots]

/-- A change of a tunnel's record that leaves its key records leaves those of every tunnel. -/
theorem Device.slots_modTunnel (d : Device) (t : Nat) (f : Tunnel → Tunnel) (h : ∀ x, (f x).slots = x.slots) (u : Nat) :
    ((d.modTunnel t f).tunnel u).slots = (d.tunnel u).slots := by
  rw [Device.tunnel_modTunnel]
  by_cases e : u = t
  · subst e; rw [if_pos rfl, h]
  · rw [if_neg e]

@[simp] theorem Device.slots_uncount (d : Device) (t u : Nat) :
    ((d.uncount t).tunnel u).slots = (d.tunnel u).slots := d.slots_modTunnel t _ (fun _ => by rfl) u

@[simp] theorem Device.slots_countOutcome (d : Device) (t : Nat) (k : Counted) (u : Nat) :
    ((d.countOutcome t k).tunnel u).slots = (d.tunnel u).slots := d.slots_modTunnel t _ (fun _ => by rfl) u

@[simp] theorem Device.tunnel_answerInbound (d : Device) (f : Frame) (o : Result) (b : Body) (u : Nat) :
    (d.answerInbound f o b).tunnel u = d.tunnel u := by
  unfold Device.answerInbound
  split
  · rfl
  · exact congrArg (SMap.get Tunnel.initial · u) (Device.modPort_tunnels ..)

@[simp] theorem Device.slots_reportInbound (d : Device) (t : Nat) (o : Result) (u : Nat) :
    ((d.reportInbound t o).tunnel u).slots = (d.tunnel u).slots := by
  unfold Device.reportInbound
  cases (inboundReport o).1 <;> cases (inboundReport o).2 <;> simp

/-- An inbound frame that is rejected or removed leaves the key records of every tunnel. -/
theorem Device.slots_failInbound (d : Device) (f : Frame) (o : Result) (b : Body) (u : Nat) :
    ((d.failInbound f o b).tunnel u).slots = (d.tunnel u).slots := by
  simp [Device.failInbound]

/-! ### The judgement of a frame that fails -/

/-- A frame that does not verify, or that the window turns down, only fails (R77). -/
theorem Device.judgeInbound_of_fails (d : Device) (w : InWork)
    (h : w.frame.wire.verifies (d.keys.entry w.entry).inbound = false
      ∨ (d.boundKey w).bind (·.judge w.frame.header.sequence) = none) :
    ∃ o, d.judgeInbound w = d.failInbound w.frame o w.frame.header.body := by
  by_cases v : w.frame.wire.verifies (d.keys.entry w.entry).inbound = true
  · have turnedDown := h.resolve_left (by simp [v])
    exact ⟨.replay, by simp [Device.judgeInbound, v, turnedDown]⟩
  · exact ⟨.authFail, by simp [Device.judgeInbound, v]⟩

/-- Settles O34: the five cases of R78, and by R77 a frame that fails changes no key record. -/
theorem theReplayWindowJudges : Obligations.TheReplayWindowJudges := by
  refine ⟨fun k s => ⟨KeyRecord.judge_of_highest_lt, ?highest, ?unseen, ?seen, ?outside⟩, fun d w fails => ?record⟩
  case highest => exact fun e => (k.judge_eq_none_iff s).2 ⟨Nat.le_of_eq e, .inr (.inl e)⟩
  case unseen =>
    exact fun below pos near unseen =>
      ⟨_, KeyRecord.judge_of_unseen below pos near unseen, fun n => mem_insertDown s n k.accepted⟩
  case seen => exact fun below seen => (k.judge_eq_none_iff s).2 ⟨Nat.le_of_lt below, .inr (.inr (.inr seen))⟩
  case outside =>
    rintro (far | zero)
    · exact (k.judge_eq_none_iff s).2 ⟨by omega, .inr (.inr (.inl far))⟩
    · exact (k.judge_eq_none_iff s).2 ⟨by omega, .inl zero⟩
  case record =>
    obtain ⟨o, e⟩ := d.judgeInbound_of_fails w fails
    rw [e, ← Tunnel.slots_eq_iff]
    exact d.slots_failInbound ..

end Sys2Proof.Machine
end

/-! PROOF. The requests that freeze, thaw and clear the monitor bank (R167, R168), and their refusal on a port other
than the operations port. -/
section

namespace Sys2Proof.Machine

/-! ### What the three commands come to -/

theorem exec_freezeMonitors (p : Port) (s : State) :
    exec (.freezeMonitors p) s = s.to (s.dev.takeRequest p 28 Device.freezeBank) := rfl

theorem exec_thawMonitors (p : Port) (s : State) :
    exec (.thawMonitors p) s = s.to (s.dev.takeRequest p 29 Device.thawBank) := rfl

theorem exec_clearMonitors (p : Port) (s : State) :
    exec (.clearMonitors p) s = s.to (s.dev.takeRequest p 30 Device.clearBank) := rfl

/-- The taking of a request leaves the bank to the request's own part. -/
@[simp] theorem Device.bank_taken (d : Device) (p : Port) (code : Nat) : (d.taken p code).bank = d.bank :=
  d.modPort_bank ..

/-- FREEZE_MONITORS, by the bank's state (R167). -/
theorem Device.freezeBank_eq (d : Device) (q : Request) :
    d.freezeBank q =
      if d.bank.state = .counting then
        .quiet { d with bank := { d.bank with state := .frozen .request } } ⟨.done, .frozen, .elapsed d.bank.elapsed⟩
      else .quiet d ⟨.done, .alreadyFrozen, .elapsed d.bank.elapsed⟩ := by
  cases h : d.bank.state with
  | counting => simp [Device.freezeBank, h]
  | frozen cause => simp [Device.freezeBank, h]

/-- THAW_MONITORS, by the bank's state (R167). -/
theorem Device.thawBank_eq (d : Device) (q : Request) :
    d.thawBank q =
      if d.bank.state = .counting then .quiet d ⟨.done, .alreadyCounting, .elapsed d.bank.elapsed⟩
      else .quiet { d with bank := { d.bank with state := .counting } }
        ⟨.done, .counting, .elapsed d.bank.elapsed⟩ := by
  cases h : d.bank.state with
  | counting => simp [Device.thawBank, h]
  | frozen cause => simp [Device.thawBank, h]

/-! ### A port that does not accept the request -/

/-- A request of one place that only the operations port accepts is refused WRONG_PORT on another port (R173). -/
theorem Device.Offers.takeRequest_wrongPort {d : Device} {p : Port} {q : Request} {code : Nat} (h : d.Offers p q 1)
    (row : catalogue code = some ⟨[.operations], 1, false⟩) (other : p ≠ .operations) (is : q.code = code)
    (own : Device → Request → Taken) :
    d.takeRequest p code own = d.answered p q (.refusal .wrongPort) := by
  subst is
  have notAccepted : p ∉ [Port.operations] := by simpa using other
  exact takeRequest_refused (row := ⟨[.operations], 1, false⟩) h row (if_pos notAccepted) own

/-- Settles O59: each request passes the common tests and comes to its own part, on the bank as the taking leaves it;
on another port the first common test refuses it. -/
theorem theBankFreezesThawsAndClears : Obligations.TheBankFreezesThawsAndClears := by
  refine fun s q => ⟨fun posed => ?freeze, fun posed => ?thaw, fun posed => ?clear, fun p other offers => ?wrongPort⟩
  case freeze =>
    rw [exec_freezeMonitors, posed.takeRequest, Device.freezeBank_eq, Device.bank_taken, Device.conclude_ite,
      State.to_ite]
    rfl
  case thaw =>
    rw [exec_thawMonitors, posed.takeRequest, Device.thawBank_eq, Device.bank_taken, Device.conclude_ite, State.to_ite]
    rfl
  case clear =>
    rw [exec_clearMonitors, posed.takeRequest, Device.clearBank, Device.bank_taken]
    rfl
  case wrongPort =>
    exact ⟨fun is => congrArg s.to (offers.takeRequest_wrongPort rfl other is _),
      fun is => congrArg s.to (offers.takeRequest_wrongPort rfl other is _),
      fun is => congrArg s.to (offers.takeRequest_wrongPort rfl other is _)⟩

end Sys2Proof.Machine
end

/-! PROOF. What every command comes to as a function of the part, and what every command leaves: the clock, the image
and the device settings (R181, R185), the capacities of the queues (R61, R94, R131, R171) and the order of the cell
store (R15, R16). -/
section

namespace Sys2Proof.Machine

/-! ### Library facts

The modules of the package import core Lean alone, which has no lemma for these in this form. -/

theorem ite_congr_iff {α : Sort _} {b c : Prop} [Decidable b] [Decidable c] {x y u v : α} (same : b ↔ c) (yes : x = u)
    (no : y = v) : (if b then x else y) = if c then u else v :=
  ite_congr (propext same) (fun _ => yes) fun _ => no

theorem getD_of_lt {α : Type _} (l : List α) (a : α) {n : Nat} (inside : n < l.length) : l.getD n a = l[n] := by
  rw [List.getD_eq_getElem?_getD, List.getElem?_eq_getElem inside, Option.getD_some]

theorem nodup_append_iff {α : Type _} {l l' : List α} :
    (l ++ l').Nodup ↔ l.Nodup ∧ l'.Nodup ∧ ∀ ⦃n⦄, n ∈ l → n ∉ l' :=
  List.nodup_append.trans ⟨fun ⟨left, right, apart⟩ => ⟨left, right, fun n is is' => apart n is n is' rfl⟩,
    fun ⟨left, right, apart⟩ => ⟨left, right, fun _ is _ is' same => apart is (same ▸ is')⟩⟩

theorem getD_of_le {α : Type _} (l : List α) (a : α) {n : Nat} (outside : l.length ≤ n) : l.getD n a = a := by
  rw [List.getD_eq_getElem?_getD, List.getElem?_eq_none outside, Option.getD_none]

/-! ### The commands as functions of the part -/

/-- The port, the code and the own part of the request that a command takes. -/
def requestOf : Instr → Option (Port × Nat × (Device → Request → Taken))
  | .claimCells p => some (p, 1, Device.claim p)
  | .releaseCells p => some (p, 2, Device.release p)
  | .sendFrame p => some (p, 3, Device.sendFrame)
  | .receiveFrame p => some (p, 4, Device.receiveFrame)
  | .readService p => some (p, 5, Device.tellService)
  | .sendDialogue p => some (p, 6, Device.sendDialogue)
  | .installKey p => some (p, 7, Device.installKey)
  | .discardNext p => some (p, 8, Device.discardNext)
  | .readSlots p => some (p, 9, Device.tellSlots)
  | .promote p => some (p, 10, Device.promoteRequest)
  | .retirePrevious p => some (p, 11, Device.retirePrevious)
  | .openTunnel p => some (p, 12, Device.openTunnel)
  | .closeTunnel p => some (p, 13, Device.closeTunnel)
  | .setHolds p => some (p, 14, Device.setHolds)
  | .readTunnel p => some (p, 15, Device.tellTunnel)
  | .writeProfile p => some (p, 16, Device.writeProfile)
  | .readProfile p => some (p, 17, Device.tellProfile)
  | .readEngine p => some (p, 18, Device.tellEngine)
  | .ackFault p => some (p, 19, Device.ackFault)
  | .readCondition p => some (p, 20, Device.tellCondition)
  | .readDeviceFaults p => some (p, 21, Device.tellFaults)
  | .startProof p => some (p, 22, Device.startRequest)
  | .stopProof p => some (p, 23, Device.stopRequest)
  | .restoreTunnel p => some (p, 24, Device.restore)
  | .writePattern p => some (p, 25, Device.writePattern)
  | .readProof p => some (p, 26, Device.tellProof)
  | .setMonitor p => some (p, 27, Device.setMonitor)
  | .freezeMonitors p => some (p, 28, Device.freezeBank)
  | .thawMonitors p => some (p, 29, Device.thawBank)
  | .clearMonitors p => some (p, 30, Device.clearBank)
  | .readMonitors p => some (p, 31, Device.tellMonitors)
  | .saveSettings p => some (p, 32, Device.save)
  | _ => none

/-- The part after a command that is not the taking of a request of the catalogue; `next` is the command that follows,
which an access to a cell may meet (R23). -/
def Device.runOther (d : Device) (next : Option Instr) : Instr → Device
  | .powerOnReset => d.powerReset
  | .loadComplete => d.loadEnds
  | .saveComplete => d.saveEnds
  | .deviceClockAdvance => d.advanceClock
  | .requestPost p w => d.post p w
  | .portWindowWrite p off w => d.writeWindow p off w next
  | .responseRead p off => d.readWindow p off next
  | .noticeRead p off => d.readWindow p off next
  | .statusRead p => d.readStatus p
  | .cellWindowAccess p off (some w) => d.writeWindow p off w next
  | .cellWindowAccess p off none => d.readWindow p off next
  | .deviceRestart p => d.takeRestart p
  | .portReset p tag => d.portReset p tag
  | .derivationComplete => d.completeJob
  | .outboundCompletion => d.outboundEnds
  | .inboundCompletion => d.inboundEnds
  | .graceExpiry t => d.graceEnds t
  | .softAgeExpiry t => d.softAgeEnds t
  | .hardAgeExpiry t => d.hardAgeEnds t
  | .intervalExpiry t => d.intervalExpires t
  | .silenceExpiry t => d.silenceExpires t
  | .keepaliveExpiry t => d.keepaliveExpires t
  | .holdExpiry t => d.holdExpires t
  | .echoDeadlineExpiry => d.echoExpires
  | .retryStart => d.retryStartTest.finish
  | .proofBuildAttempt => d.buildAttempt.finish
  | .unknownRequestCode p => d.takeUnknown p
  | _ => d

/-- The part after a command. -/
def Device.run (d : Device) (next : Option Instr) (c : Instr) : Device :=
  match requestOf c with
  | some (p, code, own) => d.takeRequest p code own
  | none => d.runOther next c

/-- An offset of a window access, for the commands that are one (R171). -/
def accessOffset : Instr → Option Nat
  | .portWindowWrite _ off _ | .responseRead _ off | .noticeRead _ off | .cellWindowAccess _ off _ => some off
  | _ => none

/-- A command is an access that may not exist, or answers the part that `run` gives. -/
theorem exec_eq_run (c : Instr) (s : State) :
    exec c s =
      match accessOffset c with
      | some off => access off s fun d => d.run s.pending.head? c
      | none => s.to (s.dev.run s.pending.head? c) := by
  cases c with
  | cellWindowAccess p off write => cases write <;> rfl
  | _ => rfl

/-- The next state of a command holds the part that `run` gives, the queue of commands as it stood. -/
theorem exec_next {c : Instr} {s t : State} (h : exec c s = .next t) :
    t = { s with dev := s.dev.run s.pending.head? c } := by
  rw [exec_eq_run] at h
  cases hoff : accessOffset c with
  | none =>
    rw [hoff] at h
    exact (Host.Outcome.next.inj h).symm
  | some off =>
    rw [hoff] at h
    simp only [access] at h
    split at h
    · cases h
    · split at h
      · cases h
      · exact (Host.Outcome.next.inj h).symm

/-- The taking of a request, as a command. -/
theorem exec_request {c : Instr} {p : Port} {code : Nat} {own : Device → Request → Taken}
    (h : requestOf c = some (p, code, own)) (s : State) : exec c s = s.to (s.dev.takeRequest p code own) := by
  cases c <;> cases h <;> rfl

/-- What every command keeps, every step keeps. -/
theorem step_keeps {P : Device → Prop} (h : ∀ d next c, P d → P (d.run next c)) {s t : State}
    (st : step s = .next t) (hs : P s.dev) : P t.dev := by
  unfold step at st
  split at st
  · cases st; exact hs
  · rw [exec_next st]; exact h _ _ _ hs

/-! ### What a device fault and an installation's tests say -/

/-- An occurrence of a device fault touches the device latches, the bank and the operations port's notices only. -/
theorem Device.deviceFault_only (d : Device) (k : DeviceFault) (n : Nat) :
    ∃ fs bk ns, d.deviceFault k n =
      { d with faults := fs, bank := bk, operations := { d.operations with notices := ns } } := by
  unfold Device.deviceFault
  split
  · exact ⟨_, d.bank, d.operations.notices, rfl⟩
  · unfold Device.offerDevice
    split
    · split
      · exact ⟨_, _, _, rfl⟩
      · exact ⟨_, _, d.operations.notices, rfl⟩
    · exact ⟨_, _, d.operations.notices, rfl⟩

theorem Device.lowMarkTest_only (d : Device) (before : Nat) :
    ∃ fs bk ns, d.lowMarkTest before =
      { d with faults := fs, bank := bk, operations := { d.operations with notices := ns } } := by
  unfold Device.lowMarkTest
  simp only
  split
  · exact d.deviceFault_only _ _
  · exact ⟨d.faults, d.bank, d.operations.notices, rfl⟩

/-- An installation that is not refused has a free entry and a place in the derivation queue, for a tunnel whose NEXT
slot is ABSENT (R57). -/
theorem Device.installRefusal_none {d : Device} {t epoch : Nat} (h : d.installRefusal t epoch = none) :
    (d.tunnel t).next = none ∧ d.keys.lowestFree ≠ none ∧ d.keys.jobs.length < 8 := by
  unfold Device.installRefusal at h
  simp only at h
  split at h
  · cases h
  · rename_i next
    split at h
    · cases h
    · split at h
      · cases h
      · rename_i free
        split at h
        · cases h
        · rename_i room
          exact ⟨by simpa using next, free, Nat.lt_of_not_le room⟩

theorem Device.jobs_lt_of_installRefusal {d : Device} {t epoch : Nat} (h : d.installRefusal t epoch = none) :
    d.keys.jobs.length < 8 := (Device.installRefusal_none h).2.2

/-! ### What the own parts of the requests can do -/

namespace Change

theorem removeNotices (d : Device) (gone : Notice → Bool) : Change d (d.removeNotices gone) := by
  unfold Device.removeNotices
  refine ite (fun _ => refl d) fun _ => ?_
  exact ((modPort d .operations _ (Nat.le_refl _) (List.length_filter_le _ _)).trans (faultScan _ _)).trans
    (retryStartTest _)

theorem claim (p : Port) (d : Device) (q : Request) : (d.claim p q).Keeps d := by
  unfold Device.claim
  obtain ⟨pool, owner⟩ := claimAs p
  simp only
  split
  · trivial
  · split
    · rename_i room
      exact { store := fun h => h.grant pool (.claimed owner) (by simp) _ room }
    · exact give d _ _

theorem release (p : Port) (d : Device) (q : Request) : (d.release p q).Keeps d := by
  unfold Device.release
  simp only
  split
  · trivial
  · split
    · trivial
    · exact freeCells d _

theorem sendFrame (d : Device) (q : Request) : (d.sendFrame q).Keeps d := by
  unfold Device.sendFrame
  simp only
  split
  · trivial
  · split
    · trivial
    · split
      · trivial
      · split
        · exact submit d _ _ ‹_›
        · trivial

theorem receiveFrame (d : Device) (q : Request) : (d.receiveFrame q).Keeps d := by
  unfold Device.receiveFrame
  simp only
  split
  · trivial
  · split
    · trivial
    · split
      · trivial
      · split
        · exact submit d _ _ ‹_›
        · trivial

theorem sendDialogue (d : Device) (q : Request) : (d.sendDialogue q).Keeps d := by
  unfold Device.sendDialogue
  simp only
  split
  · trivial
  · split
    · trivial
    · split
      · trivial
      · rename_i room
        split
        · trivial
        · exact submit d _ _ (by simpa using room)

theorem acceptInstall (d : Device) (q : Request) (epoch entry : Nat) (secret : BitVec 256)
    (room : d.keys.jobs.length < 8) : Change d (d.acceptInstall q epoch entry secret) := by
  unfold Device.acceptInstall
  simp only
  obtain ⟨fs, bk, ns, low⟩ := (d.setEntry entry .blank).lowMarkTest_only d.keys.freeCount
  rw [low]
  exact {
    jobs := by
      right
      show (d.keys.jobs ++ [_]).length ≤ 8
      rw [List.length_append]
      exact room
    requests := fun p => by cases p <;> exact Nat.le_refl _
    ops := by
      have test : Change (d.setEntry entry .blank) ((d.setEntry entry .blank).lowMarkTest d.keys.freeCount) :=
        ite (fun _ => deviceFault _ _ _) fun _ => refl _
      rw [low] at test
      exact test.ops }

theorem installKey (d : Device) (q : Request) : (d.installKey q).Keeps d := by
  unfold Device.installKey
  simp only
  split
  · trivial
  · split
    · trivial
    · split
      · exact freeCells d _
      · split
        · exact freeCells d _
        · rename_i accepted
          exact (freeCells d [q.num 1 2]).trans
            (acceptInstall _ q _ _ _ (Device.jobs_lt_of_installRefusal accepted))

theorem discardNext (d : Device) (q : Request) : (d.discardNext q).Keeps d := by
  unfold Device.discardNext
  simp only
  split
  · trivial
  · split
    · trivial
    · split
      · exact retireKey d _ _
      · trivial

theorem promoteRequest (d : Device) (q : Request) : (d.promoteRequest q).Keeps d := by
  unfold Device.promoteRequest
  simp only
  split
  · trivial
  · split
    · trivial
    · split
      · exact refl d
      · split
        · exact promote d q.tunnel
        · trivial

theorem retirePrevious (d : Device) (q : Request) : (d.retirePrevious q).Keeps d := by
  unfold Device.retirePrevious
  simp only
  split
  · trivial
  · split
    · trivial
    · split
      · exact refl d
      · exact retireKey d _ _

theorem openTunnel (d : Device) (q : Request) : (d.openTunnel q).Keeps d := by
  unfold Device.openTunnel
  simp only
  split
  · trivial
  · split
    · trivial
    · split
      · trivial
      · exact (modTunnel d _ _).trans (removeNotices _ _)

theorem closeTunnel (d : Device) (q : Request) : (d.closeTunnel q).Keeps d := by
  unfold Device.closeTunnel
  simp only
  split
  · trivial
  · have leaves : ∀ (e : Device) (ts : List Nat), Change e { e with proofs := { e.proofs with retry := ts } } :=
      fun e ts => setProofs e { e.proofs with retry := ts } id
    exact (((((modTunnel d q.tunnel _).trans (leaves _ _)).trans (abortProof _ _ _ _)).trans
      (removeFrames _ _)).trans (modTunnel _ _ _)).trans (endClosing _ _)

theorem setHolds (d : Device) (q : Request) : (d.setHolds q).Keeps d := by
  unfold Device.setHolds
  simp only
  split
  · split
    · trivial
    · exact (modTunnel d q.tunnel _).trans (ite (fun _ => abortProof _ _ _ _) fun _ => refl _)
  · trivial

theorem writeProfile (d : Device) (q : Request) : (d.writeProfile q).Keeps d := by
  unfold Device.writeProfile
  simp only
  split
  · trivial
  · split
    · trivial
    · split
      · trivial
      · exact (setProfiles d _).trans (ite (fun _ => reexamine _ _) fun _ => refl _)

theorem tellProfile (d : Device) (q : Request) : (d.tellProfile q).Keeps d := by
  unfold Device.tellProfile
  simp only
  split
  · trivial
  · split
    · trivial
    · exact refl d

theorem ackFault (d : Device) (q : Request) : (d.ackFault q).Keeps d := by
  have tunnel : ∀ k, (d.ackTunnel q.tunnel k).Keeps d := by
    intro k
    unfold Device.ackTunnel
    split
    · exact refl d
    · exact ((setLatch d _ _ _).trans (modCondition _ _ _)).trans (removeNotices _ _)
  have device : ∀ k, (d.ackDevice k).Keeps d := by
    intro k
    unfold Device.ackDevice
    split
    · exact refl d
    · exact (setFaults d _).trans (removeNotices _ _)
  unfold Device.ackFault
  split
  · split
    · exact device _
    · trivial
  · split
    · exact tunnel _
    · trivial

theorem startRequest (d : Device) (q : Request) : (d.startRequest q).Keeps d := by
  unfold Device.startRequest
  simp only
  split
  · trivial
  · split
    · trivial
    · split
      · trivial
      · split
        · trivial
        · split
          · trivial
          · rename_i open_
            exact startProof d _ _ _ _ (by simpa using open_)

theorem stopRequest (d : Device) (q : Request) : (d.stopRequest q).Keeps d := by
  unfold Device.stopRequest
  split
  · split
    · exact endProof d _ _
    · trivial
  · trivial

theorem restore (d : Device) (q : Request) : (d.restore q).Keeps d := by
  unfold Device.restore
  split
  · trivial
  · exact (modTunnel d _ _).trans (joinRetry _ _)

theorem writePattern (d : Device) (q : Request) : (d.writePattern q).Keeps d := by
  unfold Device.writePattern
  simp only
  split
  · trivial
  · split
    · trivial
    · exact setProofs d _ id

theorem setMonitor (d : Device) (q : Request) : (d.setMonitor q).Keeps d := by
  unfold Device.setMonitor
  simp only
  split
  · trivial
  · split
    · trivial
    · split
      · trivial
      · split
        · trivial
        · exact setBank d _

theorem freezeBank (d : Device) (q : Request) : (d.freezeBank q).Keeps d := by
  unfold Device.freezeBank
  split
  · exact setBank d _
  · exact refl d

theorem thawBank (d : Device) (q : Request) : (d.thawBank q).Keeps d := by
  unfold Device.thawBank
  split
  · exact setBank d _
  · exact refl d

theorem save (d : Device) (q : Request) : (d.save q).Keeps d := by
  unfold Device.save
  split
  · trivial
  · split
    · trivial
    · exact {}

/-- Every request's own part keeps to the relation. -/
theorem of_requestOf {c : Instr} {p : Port} {code : Nat} {own : Device → Request → Taken}
    (h : requestOf c = some (p, code, own)) (d : Device) (q : Request) : (own d q).Keeps d := by
  cases c <;> cases h
  case claimCells => exact claim p d q
  case releaseCells => exact release p d q
  case sendFrame => exact sendFrame d q
  case receiveFrame => exact receiveFrame d q
  case readService => exact refl d
  case sendDialogue => exact sendDialogue d q
  case installKey => exact installKey d q
  case discardNext => exact discardNext d q
  case readSlots => exact refl d
  case promote => exact promoteRequest d q
  case retirePrevious => exact retirePrevious d q
  case openTunnel => exact openTunnel d q
  case closeTunnel => exact closeTunnel d q
  case setHolds => exact setHolds d q
  case readTunnel => exact refl d
  case writeProfile => exact writeProfile d q
  case readProfile => exact tellProfile d q
  case readEngine => exact refl d
  case ackFault => exact ackFault d q
  case readCondition => exact refl d
  case readDeviceFaults => exact refl d
  case startProof => exact startRequest d q
  case stopProof => exact stopRequest d q
  case restoreTunnel => exact restore d q
  case writePattern => exact writePattern d q
  case readProof => exact refl d
  case setMonitor => exact setMonitor d q
  case freezeMonitors => exact freezeBank d q
  case thawMonitors => exact thawBank d q
  case clearMonitors => exact setBank d _
  case readMonitors => exact refl d
  case saveSettings => exact save d q

/-! ### The other commands -/

/-- A choice of a deferred response, or of none. -/
theorem answerOwed (d : Device) (p : Port) (owed : Option (BitVec 16)) (c : Nat) (st : Status) (b : Body) :
    Change d (match owed with
      | some tag => d.answerDeferred p tag c st .none b
      | none => d) := by
  cases owed with
  | some tag => exact answerDeferred d p tag c st .none b
  | none => exact refl d

theorem abandonKeys (d : Device) (j : Job) : Change d (d.abandonKeys j) :=
  (((setEntry d j.entry .free).trans (modTunnel _ j.tunnel _)).trans (answerOwed _ .key j.owed 7 _ _)).trans
    (endClosing _ j.tunnel)

theorem deriveKeys (d : Device) (j : Job) : Change d (d.deriveKeys j) :=
  (((setEntry d j.entry _).trans (modTunnel _ j.tunnel _)).trans (answerOwed _ .key j.owed 7 _ _)).trans
    (give _ .derivations _)

theorem completeJob (d : Device) : Change d d.completeJob := by
  unfold Device.completeJob
  split
  · exact refl d
  · rename_i j rest hj
    have pop : Change d { d with keys := { d.keys with jobs := rest } } :=
      { jobs := by left; rw [hj]; exact Nat.le_succ _ }
    exact pop.trans ((ite (fun _ => abandonKeys _ j) fun _ => deriveKeys _ j).trans (finish _))

theorem outboundEnds (d : Device) : Change d d.outboundEnds := by
  unfold Device.outboundEnds
  split
  · split
    · exact (completeOutbound d _ _).trans (finish _)
    · exact refl d
  · exact refl d

theorem inboundEnds (d : Device) : Change d d.inboundEnds := by
  unfold Device.inboundEnds
  split
  · split
    · exact (completeInbound d _).trans (finishInbound _ _)
    · exact refl d
  · exact refl d

theorem graceEnds (d : Device) (t : Nat) : Change d (d.graceEnds t) :=
  ite (fun _ => ((modTunnel d t _).trans (retireKey _ _ _)).trans (finish _)) fun _ => refl d

theorem softAgeEnds (d : Device) (t : Nat) : Change d (d.softAgeEnds t) :=
  ite (fun _ => (softAge d t).trans (finish _)) fun _ => refl d

theorem hardAgeEnds (d : Device) (t : Nat) : Change d (d.hardAgeEnds t) :=
  ite (fun _ => (hardAge d t).trans (finish _)) fun _ => refl d

theorem intervalExpires (d : Device) (t : Nat) : Change d (d.intervalExpires t) :=
  ite (fun _ => (intervalEnds d t).trans (finish _)) fun _ => refl d

theorem silenceExpires (d : Device) (t : Nat) : Change d (d.silenceExpires t) :=
  ite (fun _ => (silenceEnds d t).trans (finish _)) fun _ => refl d

theorem keepaliveExpires (d : Device) (t : Nat) : Change d (d.keepaliveExpires t) :=
  ite (fun _ => (keepaliveEnds d t).trans (finish _)) fun _ => refl d

theorem holdExpires (d : Device) (t : Nat) : Change d (d.holdExpires t) :=
  ite (fun _ => ((modTunnel d t _).trans (joinRetry _ _)).trans (finish _)) fun _ => refl d

theorem echoExpires (d : Device) : Change d d.echoExpires := by
  unfold Device.echoExpires
  split
  · rename_i r running
    split
    · exact ite (fun _ => (proofMiss d _ _ _ _ (by rw [running]; rfl)).trans (finish _)) fun _ => refl d
    · exact refl d
    · exact refl d
  · exact refl d

theorem expire (d : Device) (x : Due) : Change d (d.expire x) := by
  cases x with
  | grace t => exact graceEnds d t
  | softAge t => exact softAgeEnds d t
  | hardAge t => exact hardAgeEnds d t
  | interval t => exact intervalExpires d t
  | silence t => exact silenceExpires d t
  | keepalive t => exact keepaliveExpires d t
  | hold t => exact holdExpires d t
  | echo => exact echoExpires d

theorem expireDue (d : Device) : Change d d.expireDue := by
  unfold Device.expireDue
  split
  · exact refl d
  · exact trans (b := { d with draws := d.draws + 1 }) {} (foldl _ expire _ _)

/-- The advance of the clock, from the part with its clock one on. -/
theorem advanceClock (d : Device) : Change { d with clock := d.clock + 1 } d.advanceClock := by
  unfold Device.advanceClock
  refine trans (b := { d.countMicrosecond with clock := d.countMicrosecond.clock + 1 }) ?_
    ((freezeOnOverflow _).trans (expireDue _))
  unfold Device.countMicrosecond
  split
  · exact {}
  · exact {}

/-- The engine's frames marked at a port reset: no frame leaves and no queue grows. -/
theorem marked (d : Device) (p : Port) : Change d { d with engine := d.engine.marked p } :=
  setEngine d _ rfl fun q => by cases q <;> exact Nat.le_of_eq (List.length_map _)

theorem resetEffects (d : Device) (p : Port) : Change d (d.resetEffects p) := by
  cases p
  · exact (marked d _).trans (freeCells _ _)
  · refine (((marked d .key).trans (freeCells _ (d.cellsOfPort .key))).trans ?_).trans (modTunnels _ _)
    exact { jobs := Or.inl (Nat.le_of_eq (List.length_map _)) }
  · exact trans (b := { d with
      faults := d.faults.mapAll Latch.unreport, saving := d.saving.map Save.giveUp }) {} (modTunnels _ _)

theorem resetOffers (d : Device) (p : Port) : Change d (d.resetOffers p) := by
  cases p
  · exact refl d
  · exact refl d
  · exact faultScan d _

theorem portReset (d : Device) (p : Port) (tag : BitVec 16) : Change d (d.portReset p tag) := by
  have emptied : ∀ b, Change d ({ d with buildDue := b }.modPort p PortState.emptied) := fun b =>
    (setDue d b).trans (modPort _ p PortState.emptied (Nat.zero_le _) (Nat.zero_le _))
  exact ((((emptied _).trans (resetEffects _ p)).trans (resetOffers _ p)).trans (queueResponse _ p 0 _ 1)).trans
    (finish _)

/-- A change of a port's buffer, responses and latches. -/
theorem modPortSame (d : Device) (p : Port) (f : PortState → PortState) (h1 : (f (d.port p)).requests = (d.port p).requests)
    (h2 : (f (d.port p)).notices = (d.port p).notices) : Change d (d.modPort p f) :=
  modPort d p f (Nat.le_of_eq (congrArg _ h1)) (Nat.le_of_eq (congrArg _ h2))

theorem returnWord (d : Device) (p : Port) (w : BusWord) : Change d (d.returnWord p w) := modPortSame d p _ rfl rfl

theorem readNotice (d : Device) (p : Port) (off : Nat) : Change d (d.readNotice p off) := by
  unfold Device.readNotice
  simp only
  refine (returnWord d p _).trans (ite (fun _ => ?_) fun _ => refl _)
  refine (modPort _ p (fun x => { x with notices := x.notices.tail }) (Nat.le_refl _)
    (by simp)).trans ?_
  cases p
  · exact (setDue _ true).trans (finish _)
  · exact (keyFlagScan _ 1).trans (finish _)
  · exact ((faultScan _ 1).trans (retryStartTest _)).trans (finish _)

theorem readWindow (d : Device) (p : Port) (off : Nat) (next : Option Instr) : Change d (d.readWindow p off next) := by
  unfold Device.readWindow
  refine ite (fun _ => returnWord d p 0) fun _ => ite (fun _ => ?response) fun _ => ite (fun _ => readNotice d p off)
    fun _ => ite (fun _ => ?status) fun _ => ite (fun _ => ?cell) fun _ => returnWord d p 0
  case response =>
    exact (returnWord d p _).trans (ite (fun _ => modPortSame _ p _ rfl rfl) fun _ => refl _)
  case status => exact (returnWord d p _).trans (modPortSame _ p _ rfl rfl)
  case cell =>
    exact ite (fun _ => returnWord d p _) fun _ => (returnWord d p _).trans (modPortSame _ p _ rfl rfl)

theorem writeCell (d : Device) (p : Port) (off : Nat) (w : BusWord) (next : Option Instr) :
    Change d (d.writeCell p off w next) :=
  ite (fun _ => { store := fun h => h.bytes _ (Memory.wf_writeFrom _ _ _ h.2.1) }) fun _ => modPortSame d p _ rfl rfl

theorem readStatus (d : Device) (p : Port) : Change d (d.readStatus p) :=
  (returnWord d p _).trans (modPortSame _ p _ rfl rfl)

/-- The refused taking of a DEVICE_RESTART. -/
theorem refused (d : Device) (p : Port) (q : Request) (n : Nat) (st : Status) :
    Change d ((d.popRequest p n).conclude p q n (.refuse st)) :=
  (popRequest d p n).trans (conclude _ p q n _ trivial)

end Change

/-! ### Posts, restarts and loads -/

/-- A post that is no PORT_RESET touches the port's buffer, its request queue within its capacity, and OVERRUN
(R172). -/
theorem Device.post_cases (d : Device) (p : Port) (w : BusWord) :
    (∃ tag, d.post p w = d.portReset p tag)
      ∨ ∃ f, d.post p w = d.modPort p f ∧ ∀ x, (f x).notices = x.notices ∧ (f x).responses = x.responses
        ∧ (f x).reserved = x.reserved
        ∧ ((f x).requests.length ≤ x.requests.length ∨ (f x).requests.length ≤ 16) := by
  unfold Device.post
  simp only
  split
  · exact .inl ⟨_, rfl⟩
  · refine .inr ⟨_, rfl, fun x => ?_⟩
    split
    · rename_i room
      refine ⟨rfl, rfl, rfl, .inr ?_⟩
      show (x.requests ++ [_]).length ≤ 16
      rw [List.length_append]
      exact room
    · exact ⟨rfl, rfl, rfl, .inl (Nat.le_refl _)⟩

/-- A taking of a DEVICE_RESTART restarts the part, refuses the request, or does nothing (R184). -/
theorem Device.takeRestart_cases (d : Device) (p : Port) :
    d.takeRestart p = d.restart ∨ (∃ q st, (d.port p).canReserve 1 = true
      ∧ d.takeRestart p = (d.popRequest p 1).conclude p q 1 (.refuse st)) ∨ d.takeRestart p = d := by
  unfold Device.takeRestart
  split
  · split
    · split
      · exact .inl rfl
      · split
        · rename_i room
          exact .inr (.inl ⟨_, _, room, rfl⟩)
        · exact .inr (.inr rfl)
    · exact .inr (.inr rfl)
  · exact .inr (.inr rfl)


end Sys2Proof.Machine
end

/-! PROOF. What every step keeps of the clock, the image and the device settings, the queues' capacities, the order of
the cell store, and the work of its event. -/
section

namespace Sys2Proof.Machine

/-! ### The commands but for resets, loads, saves and the clock -/

/-- What a command can do that is no reset, load, save or advance of the clock: what an operation inside an event can
do, or a record joins a request queue that has room for it. -/
def Posted (a b : Device) : Prop :=
  Change a b ∨ ∃ p f, b = a.modPort p f ∧ ∀ x, (f x).notices = x.notices ∧ (f x).responses = x.responses
    ∧ (f x).reserved = x.reserved ∧ ((f x).requests.length ≤ x.requests.length ∨ (f x).requests.length ≤ 16)

theorem Posted.post (d : Device) (p : Port) (w : BusWord) : Posted d (d.post p w) := by
  rcases d.post_cases p w with ⟨tag, h⟩ | ⟨f, h, hf⟩
  · exact .inl (h ▸ Change.portReset d p tag)
  · exact .inr ⟨p, f, h, hf⟩

theorem Posted.writeWindow (d : Device) (p : Port) (off : Nat) (w : BusWord) (next : Option Instr) :
    Posted d (d.writeWindow p off w next) := by
  unfold Device.writeWindow
  split
  · exact .inl (Change.modPortSame d p _ rfl rfl)
  · split
    · exact Posted.post d p w
    · split
      · exact .inl (Change.writeCell d p off w next)
      · exact .inl (Change.refl d)

/-- The commands whose effects reach the settings, the image or the clock (R181, R182, R183, R184, R185). -/
def reachesSettings : Instr → Bool
  | .powerOnReset | .loadComplete | .saveComplete | .deviceClockAdvance | .deviceRestart _ => true
  | _ => false

theorem Device.runOther_posted (d : Device) (next : Option Instr) (c : Instr) (h : reachesSettings c = false) :
    Posted d (d.runOther next c) := by
  cases c
  case powerOnReset => cases h
  case loadComplete => cases h
  case saveComplete => cases h
  case deviceClockAdvance => cases h
  case deviceRestart => cases h
  case requestPost p w => exact .post d p w
  case portWindowWrite p off w => exact .writeWindow d p off w next
  case responseRead p off => exact .inl (.readWindow d p off next)
  case noticeRead p off => exact .inl (.readWindow d p off next)
  case statusRead p => exact .inl (.readStatus d p)
  case cellWindowAccess p off write =>
    cases write with
    | some w => exact .writeWindow d p off w next
    | none => exact .inl (.readWindow d p off next)
  case portReset p tag => exact .inl (.portReset d p tag)
  case derivationComplete => exact .inl (.completeJob d)
  case outboundCompletion => exact .inl (.outboundEnds d)
  case inboundCompletion => exact .inl (.inboundEnds d)
  case graceExpiry t => exact .inl (.graceEnds d t)
  case softAgeExpiry t => exact .inl (.softAgeEnds d t)
  case hardAgeExpiry t => exact .inl (.hardAgeEnds d t)
  case intervalExpiry t => exact .inl (.intervalExpires d t)
  case silenceExpiry t => exact .inl (.silenceExpires d t)
  case keepaliveExpiry t => exact .inl (.keepaliveExpires d t)
  case holdExpiry t => exact .inl (.holdExpires d t)
  case echoDeadlineExpiry => exact .inl (.echoExpires d)
  case retryStart => exact .inl ((Change.retryStartTest d).trans (.finish _))
  case proofBuildAttempt => exact .inl ((Change.buildAttempt d).trans (.finish _))
  case unknownRequestCode p => exact .inl (.takeUnknown d p)
  all_goals exact .inl (.refl d)

theorem Device.run_posted (d : Device) (next : Option Instr) (c : Instr) (h : reachesSettings c = false) :
    Posted d (d.run next c) := by
  unfold Device.run
  split
  · rename_i p code own req
    exact .inl (Change.takeRequest d p code own (Change.of_requestOf req))
  · exact d.runOther_posted next c h

/-! ### The clock, the image and the device settings -/

/-- The device settings in use (R181). -/
def Device.settings (d : Device) : Marks × Nat × DeviceSet := (d.engine.marks, d.keys.lowMark, d.deviceReport)

theorem Change.settings {a b : Device} (h : Change a b) : b.settings = a.settings := by
  simp [Device.settings, h.marks, h.lowMark, h.deviceReport]

theorem Posted.kept {a b : Device} (h : Posted a b) :
    b.settings = a.settings ∧ b.image = a.image ∧ b.clock = a.clock := by
  rcases h with h | ⟨p, f, rfl, -⟩
  · exact ⟨h.settings, h.image, h.clock⟩
  · simp [Device.settings]

theorem Device.saveEnds_change (d : Device) :
    ∃ i, Change { d with image := i, saving := none } d.saveEnds ∨ d.saveEnds = d := by
  unfold Device.saveEnds
  split
  · exact ⟨d.image, .inr rfl⟩
  · rename_i s _
    refine ⟨⟨s.copy, true⟩, .inl ?_⟩
    simp only
    split
    · exact Change.answerDeferred _ _ _ _ _ _ _
    · exact Change.refl _

/-- The completion of a load changes the settings in use, then only what an event can (R182). -/
theorem Device.loadEnds_change (d : Device) :
    ∃ x : Items, Change ({ d with loading := false }.useItems x) d.loadEnds ∨ d.loadEnds = d := by
  have ready : ∀ e : Device, Change e e.setReady := fun e =>
    { requests := fun p => by cases p <;> exact Nat.le_refl _ }
  unfold Device.loadEnds
  split
  · simp only
    split
    · exact ⟨d.image.items, .inl (ready _)⟩
    · exact ⟨Config.factoryItems,
        .inl (((Change.deviceFault _ .settingsDefaulted 0).trans (ready _)).trans (Change.closeEvent _))⟩
  · exact ⟨d.image.items, .inr rfl⟩

/-- Settles O14: what reaches the settings, the image or the clock is named by the command. -/
theorem settingsAndClockChangeOnlyByTheirCommands : Obligations.SettingsAndClockChangeOnlyByTheirCommands := by
  intro c s t h
  rw [exec_next h]
  generalize s.pending.head? = next
  generalize s.dev = d
  show (_ → _ → _ → (d.run next c).engine.marks = _ ∧ (d.run next c).keys.lowMark = _
    ∧ (d.run next c).deviceReport = _) ∧ _
  cases special : reachesSettings c with
  | false =>
    obtain ⟨settings, image, clock⟩ := (d.run_posted next c special).kept
    have notClock : c ≠ .deviceClockAdvance := fun e => by subst e; cases special
    simp only [Device.settings, Prod.mk.injEq] at settings
    exact ⟨fun _ _ _ => settings, fun _ => image, fun _ _ => by rw [if_neg notClock]; exact clock⟩
  | true =>
    cases c
    case powerOnReset => exact ⟨fun h => absurd rfl h, fun _ => rfl, fun h => absurd rfl h⟩
    case loadComplete =>
      obtain ⟨x, h | h⟩ := d.loadEnds_change
      · exact ⟨fun _ h => absurd rfl h, fun _ => h.image, fun _ _ => h.clock⟩
      · exact ⟨fun _ h => absurd rfl h, fun _ => congrArg Device.image h, fun _ _ => congrArg Device.clock h⟩
    case saveComplete =>
      obtain ⟨i, h | h⟩ := d.saveEnds_change
      · exact ⟨fun _ _ _ => ⟨h.marks, h.lowMark, h.deviceReport⟩, fun h => absurd rfl h, fun _ _ => h.clock⟩
      · exact ⟨fun _ _ _ => ⟨congrArg (·.engine.marks) h, congrArg (·.keys.lowMark) h,
          congrArg Device.deviceReport h⟩, fun h => absurd rfl h, fun _ _ => congrArg Device.clock h⟩
    case deviceClockAdvance =>
      have h := Change.advanceClock d
      have e : d.run next .deviceClockAdvance = d.advanceClock := rfl
      rw [e, if_pos rfl]
      exact ⟨fun _ _ _ => ⟨h.marks, h.lowMark, h.deviceReport⟩, fun _ => h.image, fun _ _ => h.clock⟩
    case deviceRestart p =>
      refine ⟨fun _ _ h => absurd rfl (h p), fun _ => ?_, fun _ h => absurd rfl (h p)⟩
      show (d.takeRestart p).image = d.image
      obtain h | ⟨q, st, -, h⟩ | h := d.takeRestart_cases p
      · rw [h]; rfl
      · rw [h]; exact (Change.refused d p q 1 st).image
      · rw [h]
    all_goals cases special

/-! ### The capacities and the cell store -/

theorem Change.bounded {a b : Device} (h : Change a b) (k : a.Bounded) : b.Bounded := by
  obtain ⟨control, settle, bulk, jobs, requests, key, ops⟩ := k
  have q1 := h.queues .control
  have q2 := h.queues .settle
  have q3 := h.queues .bulk
  simp only [Engine.queue, Queue.capacity] at q1 q2 q3
  have j := h.jobs
  have n := h.key
  have o := h.ops
  exact ⟨by omega, by omega, by omega, by omega, fun p => Nat.le_trans (h.requests p) (requests p), by omega, by omega⟩

theorem Posted.bounded {a b : Device} (h : Posted a b) (k : a.Bounded) : b.Bounded := by
  rcases h with h | ⟨p, f, rfl, hf⟩
  · exact h.bounded k
  · obtain ⟨control, settle, bulk, jobs, requests, key, ops⟩ := k
    obtain ⟨notices, -, -, room⟩ := hf (a.port p)
    refine ⟨by simpa using control, by simpa using settle, by simpa using bulk, by simpa using jobs, fun r => ?_, ?_, ?_⟩
    · rw [Device.port_modPort]
      split
      · rename_i e
        subst e
        have := requests r
        omega
      · exact requests r
    · cases p
      · exact key
      · exact Nat.le_trans (Nat.le_of_eq (congrArg _ notices)) key
      · exact key
    · cases p
      · exact ops
      · exact ops
      · exact Nat.le_trans (Nat.le_of_eq (congrArg (fun l : List Notice => l.length + _) notices)) ops

theorem Posted.store {a b : Device} (h : Posted a b) (k : a.store.Ok) : b.store.Ok := by
  rcases h with h | ⟨p, f, rfl, hf⟩
  · exact h.store k
  · simpa using k

/-- What every operation inside an event and every post keeps, and a power-on reset and a restart establish, and no
setting, image, save or clock enters, every command keeps. -/
theorem Device.run_keeps {P : Device → Prop} (posted : ∀ {a b}, Posted a b → P a → P b)
    (reset : ∀ d : Device, P d.powerReset) (restart : ∀ d : Device, P d.restart)
    (clock : ∀ (d : Device) x, P d → P { d with clock := x })
    (saved : ∀ (d : Device) i, P d → P { d with image := i, saving := none })
    (loaded : ∀ (d : Device) x, P d → P ({ d with loading := false }.useItems x))
    (d : Device) (next : Option Instr) (c : Instr) (k : P d) : P (d.run next c) := by
  cases special : reachesSettings c with
  | false => exact posted (d.run_posted next c special) k
  | true =>
    cases c
    case powerOnReset => exact reset d
    case loadComplete =>
      show P d.loadEnds
      obtain ⟨x, h | h⟩ := d.loadEnds_change
      · exact posted (.inl h) (loaded d x k)
      · rwa [h]
    case saveComplete =>
      show P d.saveEnds
      obtain ⟨i, h | h⟩ := d.saveEnds_change
      · exact posted (.inl h) (saved d i k)
      · rwa [h]
    case deviceClockAdvance => exact posted (.inl (Change.advanceClock d)) (clock d _ k)
    case deviceRestart p =>
      show P (d.takeRestart p)
      obtain h | ⟨q, st, -, h⟩ | h := d.takeRestart_cases p
      · rw [h]; exact restart d
      · rw [h]; exact posted (.inl (Change.refused d p q 1 st)) k
      · rwa [h]
    all_goals cases special

theorem Device.bounded_powerOn (i : Image) : (Device.powerOn i).Bounded :=
  ⟨Nat.zero_le _, Nat.zero_le _, Nat.zero_le _, Nat.zero_le _, fun p => by cases p <;> exact Nat.zero_le _,
    Nat.zero_le _, Nat.zero_le _⟩

theorem Device.run_bounded (d : Device) (next : Option Instr) (c : Instr) (k : d.Bounded) :
    (d.run next c).Bounded := by
  refine Device.run_keeps (P := Device.Bounded) Posted.bounded (fun d => ?_) (fun d => ?_) (fun _ _ k => k)
    (fun _ _ k => k) (fun _ _ k => k) d next c k
  · exact Device.bounded_powerOn d.image
  · obtain ⟨control, settle, bulk, jobs, requests, key, ops⟩ := Device.bounded_powerOn d.image
    exact ⟨control, settle, bulk, jobs, fun p => by cases p <;> exact Nat.zero_le _, key, ops⟩

theorem CellStore.ok_empty : (⟨[], []⟩ : CellStore).Ok := ⟨rfl, rfl, rfl, by decide, by decide⟩

theorem Device.run_store (d : Device) (next : Option Instr) (c : Instr) (k : d.store.Ok) :
    (d.run next c).store.Ok :=
  Device.run_keeps (P := fun d => d.store.Ok) Posted.store (fun _ => CellStore.ok_empty) (fun _ => CellStore.ok_empty)
    (fun _ _ k => k) (fun _ _ k => k) (fun _ _ k => k) d next c k

/-! ### The end of an event -/

/-- A part whose frames, flags and key notices are those of a settled one is settled. -/
theorem Device.Settled.congr {a b : Device} (h : a.Settled) (due : b.buildDue = a.buildDue := by rfl)
    (work : b.engine.inWork = a.engine.inWork := by rfl) (frames : b.engine.hasFrames = a.engine.hasFrames := by rfl)
    (tunnels : b.tunnels = a.tunnels := by rfl) (notices : b.key.notices.length = a.key.notices.length := by rfl) :
    b.Settled := by
  obtain ⟨h1, h2, h3⟩ := h
  refine ⟨due.trans h1, fun n => frames.trans (h2 (work.symm.trans n)), ?_⟩
  have flags : b.waitingFlags = a.waitingFlags := by
    have each : b.flagsOf = a.flagsOf := by
      funext t
      simp only [Device.flagsOf, Device.tunnel, tunnels]
    simp only [Device.waitingFlags, each]
  rw [flags, notices]
  exact h3

/-- The edges judged and a freeze made touch the bank, the device latches and the operations port's notices only. -/
theorem Device.closeEvent_only (d : Device) :
    ∃ fs bk ns, d.closeEvent = { d with faults := fs, bank := bk, operations := { d.operations with notices := ns } } := by
  unfold Device.closeEvent Device.freezeOnOverflow
  split
  · obtain ⟨fs, bk, ns, h⟩ := Device.deviceFault_only { d.judgeEdges with
      bank := { d.judgeEdges.bank with state := .frozen .overflow, freezeDue := false } } .monitorOverflow 0
    exact ⟨fs, bk, ns, h⟩
  · exact ⟨d.faults, d.judgeEdges.bank, d.operations.notices, rfl⟩

theorem Device.Settled.closeEvent {d : Device} (h : d.Settled) : d.closeEvent.Settled := by
  obtain ⟨fs, bk, ns, e⟩ := d.closeEvent_only
  have same : Device.Settled { d with faults := fs, bank := bk, operations := { d.operations with notices := ns } } :=
    h.congr
  rwa [← e] at same

/-- The end of an event leaves it settled. -/
theorem Device.settled_finish (d : Device) : d.finish.Settled := d.settled_settle.closeEvent

theorem Device.settled_finishInbound (d : Device) (before : Nat) : (d.finishInbound before).Settled := by
  obtain ⟨ns, perm, h⟩ := d.finishInbound_notices before
  have settled := d.settled_finish
  rw [h]
  generalize d.finish = e at perm settled
  exact settled.congr (notices := perm.length_eq)

/-- A change of a port that leaves the notices unread as many as they are. -/
theorem Device.Settled.modPort {d : Device} (h : d.Settled) (p : Port) (f : PortState → PortState)
    (hf : (f (d.port p)).notices = (d.port p).notices) : (d.modPort p f).Settled := by
  cases p
  · exact h.congr
  · exact h.congr (notices := congrArg List.length hf)
  · exact h.congr

theorem Device.Settled.reply {d : Device} (h : d.Settled) (p : Port) (q : Request) (n : Nat) (r : Reply) :
    (d.reply p q n r).Settled := h.modPort p _ rfl

/-- What a request that is answered quietly leaves as it stands. -/
def Taken.QuietKeeps (d : Device) : Taken → Prop
  | .quiet e _ => e.buildDue = d.buildDue ∧ e.engine = d.engine ∧ e.tunnels = d.tunnels ∧ e.key = d.key
  | .refuse _ | .answer _ _ | .wait _ => True

theorem Device.Settled.conclude {d : Device} (h : d.Settled) (p : Port) (q : Request) (n : Nat) {x : Taken}
    (hx : x.QuietKeeps d) : (d.conclude p q n x).Settled := by
  cases x with
  | refuse st => exact h.reply p q n _
  | quiet e r =>
    obtain ⟨due, engine, tunnels, key⟩ := hx
    have he : e.Settled := h.congr due (by rw [engine]) (by rw [engine]) tunnels (by rw [key])
    exact he.reply p q n r
  | answer e r => exact Device.settled_finish _
  | wait e => exact Device.settled_finish _

theorem Device.Settled.takeRequest {d : Device} (h : d.Settled) (p : Port) (code : Nat)
    (own : Device → Request → Taken) (quiet : ∀ d q, (own d q).QuietKeeps d) : (d.takeRequest p code own).Settled := by
  unfold Device.takeRequest
  split
  · exact h
  · split
    · exact h
    · rename_i row _ _ q _
      have popped : (d.popRequest p row.places).Settled := h.modPort p _ rfl
      simp only
      split
      · exact popped.conclude p q _ (x := .refuse _) trivial
      · exact popped.conclude p q _ (quiet _ q)

/-- The requests that are answered without the end of an event leave the frames, the flags and the key port. -/
theorem Taken.quietKeeps_of_requestOf {c : Instr} {p : Port} {code : Nat} {own : Device → Request → Taken}
    (h : requestOf c = some (p, code, own)) (d : Device) (q : Request) : (own d q).QuietKeeps d := by
  have still : d.buildDue = d.buildDue ∧ d.engine = d.engine ∧ d.tunnels = d.tunnels ∧ d.key = d.key :=
    ⟨rfl, rfl, rfl, rfl⟩
  cases c <;> cases h
  case readService => exact still
  case readSlots => exact still
  case readTunnel => exact still
  case readEngine => exact still
  case readCondition => exact still
  case readDeviceFaults => exact still
  case readProof => exact still
  case readMonitors => exact still
  case clearMonitors => exact still
  case claimCells =>
    unfold Device.claim
    obtain ⟨pool, owner⟩ := claimAs p
    simp only
    split
    · trivial
    · split <;> trivial
  case releaseCells => unfold Device.release; simp only; repeat' split
                       all_goals trivial
  case sendFrame => unfold Device.sendFrame; simp only; repeat' split
                    all_goals trivial
  case receiveFrame => unfold Device.receiveFrame; simp only; repeat' split
                       all_goals trivial
  case sendDialogue => unfold Device.sendDialogue; simp only; repeat' split
                       all_goals trivial
  case installKey => unfold Device.installKey; simp only; repeat' split
                     all_goals trivial
  case discardNext => unfold Device.discardNext; simp only; repeat' split
                      all_goals trivial
  case promote => unfold Device.promoteRequest; simp only; repeat' split
                  any_goals exact still
                  all_goals trivial
  case retirePrevious => unfold Device.retirePrevious; simp only; repeat' split
                         any_goals exact still
                         all_goals trivial
  case openTunnel => unfold Device.openTunnel; simp only; repeat' split
                     all_goals trivial
  case closeTunnel => unfold Device.closeTunnel; simp only; repeat' split
                      all_goals trivial
  case setHolds => unfold Device.setHolds; simp only; repeat' split
                   all_goals trivial
  case writeProfile => unfold Device.writeProfile; simp only; repeat' split
                       all_goals trivial
  case readProfile => unfold Device.tellProfile; simp only; repeat' split
                      any_goals exact still
                      all_goals trivial
  case ackFault =>
    unfold Device.ackFault Device.ackTunnel Device.ackDevice
    repeat' split
    any_goals exact still
    all_goals trivial
  case startProof => unfold Device.startRequest; simp only; repeat' split
                     all_goals trivial
  case stopProof => unfold Device.stopRequest; repeat' split
                    all_goals trivial
  case restoreTunnel => unfold Device.restore; split <;> trivial
  case writePattern => unfold Device.writePattern; simp only; repeat' split
                       any_goals exact still
                       all_goals trivial
  case setMonitor => unfold Device.setMonitor; simp only; repeat' split
                     any_goals exact still
                     all_goals trivial
  case freezeMonitors => unfold Device.freezeBank; split <;> exact still
  case thawMonitors => unfold Device.thawBank; split <;> exact still
  case saveSettings => unfold Device.save; repeat' split
                       all_goals trivial

/-! ### Every event settled -/

namespace Device.Settled

variable {d : Device}

theorem setDevice (h : d.Settled) (fs : DeviceLatches) (bk : Bank) (ns : List Notice) :
    Device.Settled { d with faults := fs, bank := bk, operations := { d.operations with notices := ns } } := h.congr

theorem deviceFault (h : d.Settled) (k : DeviceFault) (n : Nat) : (d.deviceFault k n).Settled := by
  obtain ⟨fs, bk, ns, e⟩ := d.deviceFault_only k n
  exact e ▸ h.setDevice fs bk ns

theorem freezeOnOverflow (h : d.Settled) : d.freezeOnOverflow.Settled := by
  unfold Device.freezeOnOverflow
  split
  · exact Device.Settled.deviceFault (h.setDevice d.faults _ d.operations.notices) _ _
  · exact h

theorem foldl {α : Type} {f : Device → α → Device} (hf : ∀ d a, d.Settled → (f d a).Settled) (xs : List α)
    {d : Device} (h : d.Settled) : (xs.foldl f d).Settled := by
  induction xs generalizing d with
  | nil => exact h
  | cons x xs ih => exact ih (hf d x h)

/-- An event that ends, or that cannot occur. -/
theorem iteFinish (h : d.Settled) (c : Prop) [Decidable c] (e : Device) : (if c then e.finish else d).Settled := by
  split
  · exact e.settled_finish
  · exact h

theorem expire (h : d.Settled) (x : Due) : (d.expire x).Settled := by
  cases x with
  | grace t => exact h.iteFinish _ _
  | softAge t => exact h.iteFinish _ _
  | hardAge t => exact h.iteFinish _ _
  | interval t => exact h.iteFinish _ _
  | silence t => exact h.iteFinish _ _
  | keepalive t => exact h.iteFinish _ _
  | hold t => exact h.iteFinish _ _
  | echo =>
    show d.echoExpires.Settled
    unfold Device.echoExpires
    split
    · split
      · exact h.iteFinish _ _
      · exact h
      · exact h
    · exact h

theorem advanceClock (h : d.Settled) : d.advanceClock.Settled := by
  have counted : d.countMicrosecond.Settled := by
    unfold Device.countMicrosecond
    split
    · exact h.setDevice d.faults _ d.operations.notices
    · exact h
  have moved : Device.Settled { d.countMicrosecond with clock := d.countMicrosecond.clock + 1 } :=
    counted.congr
  have frozen := moved.freezeOnOverflow
  show Device.Settled (Device.expireDue _)
  generalize Device.freezeOnOverflow _ = e at frozen
  unfold Device.expireDue
  split
  · exact frozen
  · exact foldl (fun _ x h => h.expire x) _ (d := { e with draws := e.draws + 1 }) frozen.congr

theorem powerOn (i : Image) : (Device.powerOn i).Settled := by
  refine ⟨rfl, fun _ => rfl, .inl (List.eq_nil_iff_forall_not_mem.mpr fun x hx => ?_)⟩
  obtain ⟨-, slot | slot, waits⟩ := (Device.mem_waitingFlags _ x).mp hx
  · rw [Device.flagWaits, slot] at waits; cases waits
  · rw [Device.flagWaits, slot] at waits; cases waits

theorem loadEnds (h : d.Settled) : d.loadEnds.Settled := by
  have used : ∀ x, ({ d with loading := false }.useItems x).Settled := fun x => h.congr
  have ready : ∀ {e : Device}, e.Settled → e.setReady.Settled := fun h => h.congr
  unfold Device.loadEnds
  split
  · simp only
    split
    · exact ready (used _)
    · exact (ready ((used _).deviceFault _ _)).closeEvent
  · exact h

theorem saveEnds (h : d.Settled) : d.saveEnds.Settled := by
  unfold Device.saveEnds
  split
  · exact h
  · have saved : ∀ i, Device.Settled { d with image := i, saving := none } := fun _ => h.congr
    simp only
    split
    · exact (saved _).modPort .operations _ rfl
    · exact saved _

theorem takeRestart (h : d.Settled) (p : Port) : (d.takeRestart p).Settled := by
  obtain e | ⟨q, st, -, e⟩ | e := d.takeRestart_cases p
  · rw [e]
    exact (powerOn d.image).congr
  · rw [e]
    exact (h.modPort p _ rfl).conclude p q 1 (x := .refuse st) trivial
  · rw [e]
    exact h

theorem post (h : d.Settled) (p : Port) (w : BusWord) : (d.post p w).Settled := by
  rcases d.post_cases p w with ⟨tag, e⟩ | ⟨f, e, hf⟩
  · rw [e]
    exact Device.settled_finish _
  · rw [e]
    exact h.modPort p f (hf _).1

theorem readNotice (h : d.Settled) (p : Port) (off : Nat) : (d.readNotice p off).Settled := by
  unfold Device.readNotice
  simp only
  split
  · cases p <;> exact Device.settled_finish _
  · exact h.modPort p _ rfl

theorem readWindow (h : d.Settled) (p : Port) (off : Nat) (next : Option Instr) :
    (d.readWindow p off next).Settled := by
  have word : ∀ w, (d.returnWord p w).Settled := fun w => h.modPort p _ rfl
  unfold Device.readWindow
  split
  · exact word 0
  · split
    · unfold Device.readResponse
      simp only
      split
      · exact (word _).modPort p _ rfl
      · exact word _
    · split
      · exact h.readNotice p off
      · split
        · exact (word _).modPort p _ rfl
        · split
          · unfold Device.readCell
            split
            · exact word _
            · exact (word 0).modPort p _ rfl
          · exact word 0

theorem writeWindow (h : d.Settled) (p : Port) (off : Nat) (w : BusWord) (next : Option Instr) :
    (d.writeWindow p off w next).Settled := by
  unfold Device.writeWindow
  split
  · exact h.modPort p _ rfl
  · split
    · exact h.post p w
    · split
      · unfold Device.writeCell
        split
        · exact h.congr
        · exact h.modPort p _ rfl
      · exact h

theorem takeUnknown (h : d.Settled) (p : Port) : (d.takeUnknown p).Settled := by
  unfold Device.takeUnknown
  split
  · split
    · exact (h.modPort p _ rfl).conclude p _ 1 (x := .refuse _) trivial
    · exact h
  · exact h

theorem runOther (h : d.Settled) (next : Option Instr) (c : Instr) : (d.runOther next c).Settled := by
  cases c
  case powerOnReset => exact powerOn d.image |>.congr
  case loadComplete => exact h.loadEnds
  case saveComplete => exact h.saveEnds
  case deviceClockAdvance => exact h.advanceClock
  case requestPost p w => exact h.post p w
  case portWindowWrite p off w => exact h.writeWindow p off w next
  case responseRead p off => exact h.readWindow p off next
  case noticeRead p off => exact h.readWindow p off next
  case statusRead p => exact (h.modPort p _ rfl).modPort p _ rfl
  case cellWindowAccess p off write =>
    cases write with
    | some w => exact h.writeWindow p off w next
    | none => exact h.readWindow p off next
  case deviceRestart p => exact h.takeRestart p
  case portReset p tag =>
    show (d.portReset p tag).Settled
    unfold Device.portReset
    exact Device.settled_finish _
  case derivationComplete =>
    show d.completeJob.Settled
    unfold Device.completeJob
    split
    · exact h
    · exact Device.settled_finish _
  case outboundCompletion =>
    show d.outboundEnds.Settled
    unfold Device.outboundEnds
    split
    · split
      · exact Device.settled_finish _
      · exact h
    · exact h
  case inboundCompletion =>
    show d.inboundEnds.Settled
    unfold Device.inboundEnds
    split
    · split
      · exact Device.settled_finishInbound _ _
      · exact h
    · exact h
  case graceExpiry t => exact h.expire (.grace t)
  case softAgeExpiry t => exact h.expire (.softAge t)
  case hardAgeExpiry t => exact h.expire (.hardAge t)
  case intervalExpiry t => exact h.expire (.interval t)
  case silenceExpiry t => exact h.expire (.silence t)
  case keepaliveExpiry t => exact h.expire (.keepalive t)
  case holdExpiry t => exact h.expire (.hold t)
  case echoDeadlineExpiry => exact h.expire .echo
  case retryStart => exact Device.settled_finish _
  case proofBuildAttempt => exact Device.settled_finish _
  case unknownRequestCode p => exact h.takeUnknown p
  all_goals exact h

theorem run (h : d.Settled) (next : Option Instr) (c : Instr) : (d.run next c).Settled := by
  unfold Device.run
  split
  · rename_i p code own req
    exact h.takeRequest p code own (Taken.quietKeeps_of_requestOf req)
  · exact h.runOther next c

end Device.Settled

/-- Settles O10: a command ends its event, which settles it, or leaves the frames, the flags and the key port. -/
theorem everyEventIsSettled : Obligations.EveryEventIsSettled :=
  fun _ _ st settled => step_keeps (P := Device.Settled) (fun _ next c h => h.run next c) st settled

/-! ### An event with nothing left to settle -/

/-- Where nothing is left to settle, the settling of an event and the offer of its flags change nothing. -/
theorem Device.Quiet.finish {d : Device} (h : d.Quiet) : d.finish = d.closeEvent := by
  obtain ⟨⟨due, work, flags⟩, waits⟩ := h
  have idle : { d with buildDue := false } = d := by rw [← due]
  have settled : d.settle = d := by
    unfold Device.settle Device.settleFuel settleFor
    rw [if_neg (by simp [due]), if_neg (by rintro ⟨a, b⟩; rw [work a] at b; cases b), idle]
  have offered : d.offerFlags = d := by
    unfold Device.offerFlags
    rcases flags with none_ | full
    · rw [none_]; rfl
    · have noRoom : d.keyRoom = false := decide_eq_false (Nat.not_lt.mpr full)
      have one : ∀ x, d.offerFlag x = d := by
        intro x
        unfold Device.offerFlag
        rw [noRoom]
        repeat' split
        any_goals rfl
        all_goals contradiction
      induction d.waitingFlags with
      | nil => rfl
      | cons x xs ih => rw [List.foldl_cons, one x]; exact ih
  unfold Device.finish
  rw [settled, offered]

theorem Bank.advanceWhere_false (b : Bank) (hit : Monitor → Bool) (h : ∀ m ∈ b.monitors, hit m = false) :
    b.advanceWhere hit = b := by
  unfold Bank.advanceWhere
  split
  · have monitors : (b.monitors.map fun m => if hit m then m.advance else m) = b.monitors := by
      refine (List.map_congr_left fun m hm => ?_).trans (List.map_id b.monitors)
      rw [h m hm]
      rfl
    have freeze : (b.monitors.any fun m => hit m && m.atTop && m.freeze) = false := by
      rw [List.any_eq_false]
      intro m hm
      rw [h m hm]
      simp
    rw [monitors, freeze, Bool.or_false]
  · rfl

/-- With no EDGE monitor and no freeze due the end of an event changes nothing. -/
theorem Device.closeEvent_eq_self {d : Device} (edges : ∀ m ∈ d.bank.monitors, m.mode ≠ .edge)
    (due : d.bank.freezeDue = false) : d.closeEvent = d := by
  have judged : d.judgeEdges = d := by
    unfold Device.judgeEdges
    rw [Bank.advanceWhere_false _ _ fun m hm => by simp [edges m hm]]
    have monitors : (d.bank.monitors.map fun m =>
        if m.mode = .edge then { m with held := some (d.conditionHolds m) } else m) = d.bank.monitors := by
      refine (List.map_congr_left fun m hm => ?_).trans (List.map_id d.bank.monitors)
      rw [if_neg (edges m hm)]
      rfl
    simp only
    rw [monitors]
  unfold Device.closeEvent Device.freezeOnOverflow
  rw [judged, due]
  rfl

/-- Settles O15: a quiet part has nothing to settle and no flag to offer, and the end of an event is the bank's. -/
theorem quietEventsEndInTheBank : Obligations.QuietEventsEndInTheBank := by
  intro d quiet
  refine ⟨quiet.finish, ?_, fun edges due => Device.closeEvent_eq_self edges due⟩
  obtain ⟨fs, bk, ns, e⟩ := d.closeEvent_only
  rw [e]
  rfl

end Sys2Proof.Machine
end

/-! PROOF. The machine's step, the accesses that exist, and the writes of a port window that are stored or posted
(R171, R172); the grants of cells, their release, and the laying of frames (R6, R16, R17, R18, R21). -/
section

namespace Sys2Proof.Machine

/-! ### Steps and accesses -/

/-- Settles O1: the front command leaves the queue and is run; an empty queue idles. -/
theorem stepRunsTheFrontCommand : Obligations.StepRunsTheFrontCommand := fun _ _ _ => ⟨rfl, rfl⟩

/-- A well-formed access names an aligned word of the port window. -/
theorem offset_of_wellFormed {c : Instr} {off : Nat} (access : accessOffset c = some off) (h : c.wellFormed = true) :
    off < 0x100000 ∧ off % 4 = 0 := by
  cases c <;> cases access <;>
    simp only [Instr.wellFormed, aligned, Bool.and_eq_true, beq_iff_eq, decide_eq_true_eq] at h
  case portWindowWrite => exact ⟨h.1.1.2, h.1.1.1⟩
  case responseRead => exact ⟨h.1.2, h.1.1⟩
  case noticeRead => exact ⟨h.1.1.2, h.1.1.1⟩
  case cellWindowAccess => exact ⟨h.1.2, h.1.1⟩

theorem access_outside {off : Nat} (h : 0x100000 ≤ off) (s : State) (f : Device → Device) :
    access off s f = .fault .outsideWindow := if_pos h

theorem access_unaligned {off : Nat} (h : off < 0x100000) (u : off % 4 ≠ 0) (s : State) (f : Device → Device) :
    access off s f = .fault .unalignedAccess := by
  unfold access
  rw [if_neg (Nat.not_le.mpr h), if_pos u]

/-- Settles O2: a command that is no access answers at once; an access answers where its offset is that of an aligned
word, and faults by name elsewhere (R171). -/
theorem wellFormedCommandsComplete : Obligations.WellFormedCommandsComplete := by
  refine ⟨fun c s h => ?_, fun s p off w write => ⟨fun outside => ?_, fun inside unaligned => ?_⟩⟩
  · rw [exec_eq_run]
    cases hoff : accessOffset c with
    | none => exact ⟨_, rfl, rfl⟩
    | some off =>
      obtain ⟨inside, aligned⟩ := offset_of_wellFormed hoff h
      exact ⟨_, access_next inside aligned s _, rfl⟩
  · simp only [exec_eq_run, accessOffset, access_outside outside, and_self]
  · simp only [exec_eq_run, accessOffset, access_unaligned inside unaligned, and_self]

theorem exec_portWindowWrite {off : Nat} (inside : off < 0x100000) (aligned : off % 4 = 0) (s : State) (p : Port)
    (w : BusWord) : exec (.portWindowWrite p off w) s = s.to (s.dev.writeWindow p off w s.pending.head?) :=
  (exec_eq_run _ s).trans (access_next inside aligned s _)

theorem exec_cellWindowWrite {off : Nat} (inside : off < 0x100000) (aligned : off % 4 = 0) (s : State) (p : Port)
    (w : BusWord) :
    exec (.cellWindowAccess p off (some w)) s = s.to (s.dev.writeWindow p off w s.pending.head?) :=
  (exec_eq_run _ s).trans (access_next inside aligned s _)

/-- Settles O17: the offset names the area of R171's table. -/
theorem windowWritesReachTheirArea : Obligations.WindowWritesReachTheirArea := by
  intro s p off w inside aligned x
  rw [exec_portWindowWrite inside aligned, exec_cellWindowWrite inside aligned]
  by_cases buffer : off < 0x1C
  · rw [if_pos buffer, Device.writeWindow, if_pos buffer]
    rfl
  · rw [if_neg buffer]
    by_cases last : off = 0x1C
    · rw [if_pos last, Device.writeWindow, if_neg buffer, if_pos last]
      rfl
    · rw [if_neg last]
      by_cases cell : 0x80000 ≤ off ∧ p ≠ .operations
      · rw [if_pos cell]
      · rw [if_neg cell, Device.writeWindow, if_neg buffer, if_neg last, if_neg ?_]
        · rfl
        · simp only [inCellWindow, Bool.and_eq_true, bne_iff_ne, decide_eq_true_eq]
          exact fun h => cell ⟨h.2, h.1⟩

/-- Settles O18: the record is a PORT_RESET, or joins the queue, or is lost with OVERRUN (R172). -/
theorem postsJoinTheRequestQueue : Obligations.PostsJoinTheRequestQueue := by
  intro s p w x record q
  show s.to (s.dev.post p w) = _
  have posted : s.dev.post p w = if q.code = 34 then s.dev.portReset p q.tag else s.dev.setPort p
      (if x.requests.length < 16 then { x with buffer := List.replicate 32 0, requests := x.requests ++ [record] }
        else { x with buffer := List.replicate 32 0, overrun := true }) := rfl
  rw [posted, State.to_ite]
  congr 1
  split <;> rfl

/-! ### The parts of a taking -/

/-- A request that is taken and passes the common tests comes to its own part. -/
theorem exec_posed {c : Instr} {p : Port} {code : Nat} {own : Device → Request → Taken}
    (req : requestOf c = some (p, code, own)) {s : State} {q : Request} (posed : s.dev.Poses p q code) :
    exec c s = s.to ((s.dev.taken p code).conclude p q (((catalogue q.code).map (·.places)).getD 1)
      (own (s.dev.taken p code) q)) := by
  rw [exec_request req, posed.takeRequest]

namespace Device

variable (d : Device) (p : Port) (code : Nat)

@[simp] theorem clock_taken : (d.taken p code).clock = d.clock := d.modPort_clock ..
@[simp] theorem store_taken : (d.taken p code).store = d.store := d.modPort_store ..
@[simp] theorem tunnels_taken : (d.taken p code).tunnels = d.tunnels := d.modPort_tunnels ..
@[simp] theorem profiles_taken : (d.taken p code).profiles = d.profiles := d.modPort_profiles ..
@[simp] theorem keys_taken : (d.taken p code).keys = d.keys := d.modPort_keys ..
@[simp] theorem engine_taken : (d.taken p code).engine = d.engine := d.modPort_engine ..
@[simp] theorem faults_taken : (d.taken p code).faults = d.faults := d.modPort_faults ..
@[simp] theorem deviceReport_taken : (d.taken p code).deviceReport = d.deviceReport := d.modPort_deviceReport ..
@[simp] theorem proofs_taken : (d.taken p code).proofs = d.proofs := d.modPort_proofs ..
@[simp] theorem saving_taken : (d.taken p code).saving = d.saving := d.modPort_saving ..
@[simp] theorem tunnel_taken (t : Nat) : (d.taken p code).tunnel t = d.tunnel t := by simp [Device.tunnel]

/-- The taking of a request leaves the notices of every port. -/
@[simp] theorem notices_taken (r : Port) : ((d.taken p code).port r).notices = (d.port r).notices := by
  unfold taken popRequest
  rw [port_modPort]
  split <;> rfl

@[simp] theorem trafficNotices_taken : (d.taken p code).traffic.notices = d.traffic.notices :=
  d.notices_taken p code .traffic

@[simp] theorem operationsNotices_taken : (d.taken p code).operations.notices = d.operations.notices :=
  d.notices_taken p code .operations

end Device

/-! ### Grants of cells -/

namespace CellStore

/-- The numbers that a canonical list holds are those whose value is not that of an unlisted number. -/
theorem length_eq_countP_range {α : Type} [DecidableEq α] (d : α) (m : SMap α) (n : Nat) (wf : SMap.wf d m = true)
    (below : ∀ e ∈ m, e.1 < n) : (List.range n).countP (fun k => decide (SMap.get d m k ≠ d)) = m.length := by
  have rising : m.Pairwise fun a b => a.1 < b.1 := by
    clear below
    induction m with
    | nil => exact .nil
    | cons e m ih =>
      obtain ⟨-, first, rest⟩ := (SMap.wf_cons d e.1 e.2 m).mp wf
      exact .cons first (ih rest)
  have listed : ∀ k, SMap.get d m k ≠ d ↔ k ∈ m.map (·.1) := by
    clear below rising
    induction m with
    | nil => simp [SMap.get]
    | cons e m ih =>
      obtain ⟨a, x⟩ := e
      obtain ⟨value, -, rest⟩ := (SMap.wf_cons d a x m).mp wf
      intro k
      by_cases e : a = k
      · subst e
        simp [SMap.get_head, value]
      · rw [SMap.get_tail _ _ _ _ _ e, ih rest]
        simp [Ne.symm e]
  have perm : ((List.range n).filter fun k => decide (SMap.get d m k ≠ d)).Perm (m.map (·.1)) := by
    refine (List.perm_ext_iff_of_nodup (List.nodup_range.filter _) ?_).mpr fun k => ?_
    · exact (List.pairwise_map.mpr (rising.imp Nat.ne_of_lt))
    · rw [List.mem_filter, decide_eq_true_iff, listed, List.mem_range]
      exact ⟨And.right, fun h => ⟨by obtain ⟨e, he, rfl⟩ := List.mem_map.mp h; exact below e he, h⟩⟩
  rw [List.countP_eq_length_filter, perm.length_eq, List.length_map]

/-- In a store in order each listed cell is charged to one pool, so that the listed cells are those charged. -/
theorem Ok.length_eq_charged {c : CellStore} (h : c.Ok) :
    c.cells.length = c.charged .regular + c.charged .reserved
      ∧ c.cells.countP (fun e => decide (e.2.state ≠ .free)) = c.cells.length := by
  obtain ⟨-, -, ok, -, -⟩ := h
  unfold CellStore.charged
  generalize c.cells = m at ok
  induction m with
  | nil => exact ⟨rfl, rfl⟩
  | cons e m ih =>
    rw [List.all_cons, Bool.and_eq_true] at ok
    obtain ⟨ih1, ih2⟩ := ih ok.2
    obtain ⟨n, state, charge⟩ := e
    simp only [cellOk, Bool.and_eq_true, decide_eq_true_eq] at ok
    obtain ⟨⟨⟨-, used⟩, pool⟩, -⟩ := ok
    simp only [List.countP_cons, List.length_cons]
    cases charge with
    | none => cases pool
    | some r => cases r <;> simp_all <;> omega

/-- The FREE cells among the 2048 are those that neither pool is charged with (R16). -/
theorem Ok.countP_free {c : CellStore} (h : c.Ok) :
    ((List.range Config.cellCount).filter fun k => decide ((c.cell k).state = .free)).length
      = 2048 - c.charged .regular - c.charged .reserved := by
  have used : ∀ k, (c.cell k).state = .free ↔ SMap.get Cell.free c.cells k = Cell.free := fun k =>
    ⟨h.uncharged k, fun e => by rw [CellStore.cell, e]; rfl⟩
  have below : ∀ e ∈ c.cells, e.1 < Config.cellCount := by
    intro e he
    have := List.all_eq_true.mp h.2.2.1 e he
    simp only [cellOk, Bool.and_eq_true, decide_eq_true_eq] at this
    exact this.1.1
  have listed := length_eq_countP_range Cell.free c.cells Config.cellCount h.1 below
  have all := List.length_eq_countP_add_countP (fun k => decide ((c.cell k).state = .free))
    (l := List.range Config.cellCount)
  rw [← List.countP_eq_length_filter]
  have same : (List.range Config.cellCount).countP (fun k => decide (SMap.get Cell.free c.cells k ≠ Cell.free))
      = (List.range Config.cellCount).countP fun k => !decide ((c.cell k).state = .free) := by
    refine List.countP_congr fun k _ => ?_
    simp [used k]
  rw [List.length_range, show Config.cellCount = 2048 from rfl] at all
  rw [same] at listed
  have total := h.length_eq_charged.1
  have e : (List.range Config.cellCount).countP (fun a => decide (¬ (decide ((c.cell a).state = .free)) = true))
      = (List.range Config.cellCount).countP fun k => !decide ((c.cell k).state = .free) :=
    List.countP_congr fun k _ => by simp
  rw [show Config.cellCount = 2048 from rfl] at *
  omega

/-- The pool having room, as many FREE cells are granted as are asked for (R17). -/
theorem Ok.length_lowestFree {c : CellStore} (h : c.Ok) {p : Pool} {n : Nat} (room : c.charged p + n ≤ p.limit) :
    (c.lowestFree n).length = n := by
  have free := h.countP_free
  have regular : c.charged .regular ≤ 1792 := h.2.2.2.1
  have reserved : c.charged .reserved ≤ 256 := h.2.2.2.2
  unfold lowestFree
  rw [List.length_take, free]
  cases p
  · have : Pool.limit .regular = 1792 := rfl
    omega
  · have : Pool.limit .reserved = 256 := rfl
    omega

theorem pairwise_lowestFree (c : CellStore) (n : Nat) : (c.lowestFree n).Pairwise (· < ·) :=
  (List.pairwise_lt_range.sublist List.filter_sublist).sublist (List.take_sublist _ _)

/-- No member below a member of the first ones of a rising list is passed over. -/
theorem mem_take_of_lt {l : List Nat} (rising : l.Pairwise (· < ·)) {n k j : Nat} (hk : k ∈ l.take n) (hj : j ∈ l)
    (lt : j < k) : j ∈ l.take n := by
  rw [← List.take_append_drop n l, List.mem_append] at hj
  refine hj.resolve_right fun later => ?_
  rw [← List.take_append_drop n l, List.pairwise_append] at rising
  exact absurd (rising.2.2 k hk j later) (Nat.lt_asymm lt)

theorem mem_lowestFree_of_lt (c : CellStore) {n k j : Nat} (hk : k ∈ c.lowestFree n) (lt : j < k)
    (free : (c.cell j).state = .free) : j ∈ c.lowestFree n := by
  have below := (c.free_of_mem_lowestFree n k hk).1
  exact mem_take_of_lt (List.pairwise_lt_range.sublist List.filter_sublist) hk
    (List.mem_filter.mpr ⟨List.mem_range.mpr (Nat.lt_trans lt below), decide_eq_true free⟩) lt

/-- What a grant of FREE cells charges to the pools (R16). -/
theorem Ok.charged_take_free {c : CellStore} (p : Pool) (s : CellState) (ns : List Nat) :
    c.Ok → ns.Nodup → (∀ k ∈ ns, (c.cell k).state = .free) → ∀ r,
      (c.take p s ns).charged r = c.charged r + if r = p then ns.length else 0 := by
  suffices main : ∀ c : CellStore, SMap.wf Cell.free c.cells = true → ns.Nodup → (∀ k ∈ ns, c.cell k = Cell.free) →
      ∀ r, (c.take p s ns).charged r = c.charged r + if r = p then ns.length else 0 by
    exact fun ok nodup free r => main c ok.1 nodup (fun k hk => ok.uncharged k (free k hk)) r
  induction ns with
  | nil => intro c _ _ _ r; simp [CellStore.take]
  | cons n ns ih =>
    intro c wf nodup free r
    rw [List.nodup_cons] at nodup
    have one := charged_setCell c n ⟨s, some p⟩ r wf
    rw [free n List.mem_cons_self] at one
    have none_ : (counts r Cell.free).toNat = 0 := rfl
    have new : (counts r ⟨s, some p⟩).toNat = if r = p then 1 else 0 := by
      unfold counts
      cases p <;> cases r <;> rfl
    have rest := ih (c.setCell n ⟨s, some p⟩) (SMap.wf_put _ _ _ _ wf) nodup.2
      (fun k hk => by
        rw [cell_setCell, if_neg (fun e : k = n => nodup.1 (e ▸ hk))]
        exact free k (List.mem_cons_of_mem _ hk)) r
    show (CellStore.take (c.setCell n ⟨s, some p⟩) p s ns).charged r = _
    rw [rest, List.length_cons]
    split <;> simp_all <;> omega

end CellStore

/-- Settles O25: the grant is the first of the rising list of FREE cells, and the store in order has as many as the
pool has room for. -/
theorem grantsTakeTheLowestFreeCells : Obligations.GrantsTakeTheLowestFreeCells := by
  intro c pool st n ok room used cells c'
  have free : ∀ k ∈ cells, (c.cell k).state = .free := fun k hk => (c.free_of_mem_lowestFree n k hk).2
  have length : cells.length = n := ok.length_lowestFree room
  refine ⟨length, c.pairwise_lowestFree n, fun k hk => c.free_of_mem_lowestFree n k hk,
    fun k j hk lt hj => c.mem_lowestFree_of_lt hk lt hj, fun k => c.cell_take pool st cells k,
    c.bytes_take pool st cells, fun r => ?_, ?_⟩
  · rw [← length]
    exact CellStore.Ok.charged_take_free pool st cells ok (c.nodup_lowestFree n) free r
  · obtain ⟨charged, used⟩ := ok.length_eq_charged
    show 2048 - _ = _
    rw [used, charged]
    omega

/-- CLAIM_CELLS, by its count and the room of the pool (R17). -/
theorem Device.claim_eq (p : Port) (d : Device) (q : Request) :
    Device.claim p d q =
      if q.num 0 1 < 1 ∨ 16 < q.num 0 1 then .refuse .badRequest
      else if d.store.charged (claimAs p).1 + q.num 0 1 ≤ (claimAs p).1.limit then
        .answer { d with
          store := d.store.take (claimAs p).1 (.claimed (claimAs p).2) (d.store.lowestFree (q.num 0 1)) }
          (.done (.cells (d.store.lowestFree (q.num 0 1))))
      else .answer (d.give .claimsRefused none)
        ⟨.noCells, .none, .headroom ((claimAs p).1.limit - d.store.charged (claimAs p).1)⟩ := by
  unfold Device.claim CellStore.hasRoom
  obtain ⟨pool, owner⟩ := claimAs p
  simp only
  by_cases bad : q.num 0 1 < 1 ∨ 16 < q.num 0 1
  · rw [if_pos bad]
    exact if_pos (by simp [within]; omega)
  · rw [if_neg bad]
    refine (if_neg (by simp [within]; omega)).trans ?_
    split <;> rename_i h <;> simp only [decide_eq_true_eq] at h
    · rw [if_pos h]
    · rw [if_neg h]

/-- Settles O24: the grant, or the refusal with the pool's headroom. -/
theorem claimsAreGrantedWhole : Obligations.ClaimsAreGrantedWhole := by
  intro s p q owner pool named posed n limit d
  rw [exec_posed (c := .claimCells p) rfl posed, Device.claim_eq]
  simp only [Device.conclude_ite, State.to_ite, Device.store_taken, Device.conclude_refuse, Device.conclude_answer]
  obtain ⟨rfl, rfl, rfl⟩ | ⟨rfl, rfl, rfl⟩ := named <;> rfl

/-! ### Releases -/

/-- RELEASE_CELLS, by its tests (R18). -/
theorem Device.release_eq (p : Port) (d : Device) (q : Request) :
    Device.release p d q =
      if q.num 0 1 < 1 ∨ 12 < q.num 0 1 ∨ (∃ n ∈ q.numbers 0, 2048 ≤ n) ∨ ¬ (q.numbers 0).Nodup then
        .refuse .badRequest
      else if ∃ n ∈ q.numbers 0, d.store.touchable p n = false then .refuse .notOwner
      else .answer (d.freeCells (q.numbers 0)) (.done .empty) := by
  unfold Device.release
  simp only
  by_cases bad : q.num 0 1 < 1 ∨ 12 < q.num 0 1 ∨ (∃ n ∈ q.numbers 0, 2048 ≤ n) ∨ ¬ (q.numbers 0).Nodup
  · rw [if_pos bad, if_pos]
    rw [cellsNamed_iff]
    rintro ⟨⟨range, below⟩, nodup⟩
    obtain h | h | ⟨n, hn, h⟩ | h := bad
    · omega
    · omega
    · exact absurd (below n hn) (Nat.not_lt.mpr h)
    · exact h nodup
  · rw [if_neg bad, if_neg]
    · split <;> split <;> simp_all
    · simp only [not_or, not_exists, not_and, Nat.not_le, Classical.not_not] at bad
      obtain ⟨low, high, below, nodup⟩ := bad
      rw [Classical.not_not, cellsNamed_iff]
      exact ⟨⟨by omega, below⟩, nodup⟩

/-- Settles O26: the tests, and what freeing does to each cell and byte. -/
theorem releasesFreeAndWipe : Obligations.ReleasesFreeAndWipe := by
  refine ⟨fun s p q owner named posed => ?_, fun d cells => ⟨?_, ?_, ?_, rfl⟩⟩
  · intro cells d
    have foreign : (∃ n ∈ cells, s.dev.store.touchable p n = false) ↔ ∃ n ∈ cells,
        (s.dev.store.cell n).state ≠ .claimed owner ∧ (s.dev.store.cell n).state ≠ .done owner := by
      refine exists_congr fun n => and_congr_right fun _ => ?_
      rw [← Bool.not_eq_true, CellStore.touchable_iff]
      obtain ⟨rfl, rfl⟩ | ⟨rfl, rfl⟩ := named <;> simp
    rw [exec_posed (c := .releaseCells p) rfl posed, Device.release_eq]
    simp only [Device.conclude_ite, State.to_ite, Device.store_taken, Device.conclude_refuse, Device.conclude_answer,
      ← foreign]
    rfl
  · exact fun k => d.store.cell_release cells k
  · exact fun a => d.store.read_release cells a
  · simp [Device.freeCells]

/-! ### Frames laid in cells -/

/-- Settles O27: the listed cells are wiped, then written in their order. -/
theorem framesAreLaidInCellOrder : Obligations.FramesAreLaidInCellOrder := by
  intro c cells bytes nodup fits c'
  refine ⟨fun j hj => ?_, fun a ha => c.read_lay_outside cells bytes nodup fits a ha, c.cells_lay cells bytes⟩
  have laid := ((c.wipeAll cells).read_writeSeq cells nodup bytes 0 (by omega)).1 j hj
  show c'.bytes.read (cellAddress cells j) = _
  refine laid.trans ?_
  by_cases h : j < bytes.length
  · rw [if_pos (by omega), Nat.sub_zero]
  · have position : j / 256 < cells.length := by omega
    have inCell : cellAddress cells j / 256 ∈ cells := by
      have e : cellAddress cells j / 256 = cells[j / 256] := by
        have : cells.getD (j / 256) 0 = cells[j / 256] := getD_of_lt _ _ position
        show (cells.getD (j / 256) 0 * 256 + j % 256) / 256 = _
        rw [this]
        omega
      rw [e]
      exact List.getElem_mem position
    rw [if_neg (by omega), c.read_wipeAll, if_pos inCell, getD_of_le _ _ (Nat.le_of_not_lt h)]

end Sys2Proof.Machine
end

/-! PROOF. The reads of a port window, the cell window, the reset of a port, the common tests, and the submission of
frames (R22, R23, R97, R98, R99, R171, R173, R175, R176, R177, R178, R179). -/
section

namespace Sys2Proof.Machine

/-! ### Reads of the response and notice areas -/

theorem exec_responseRead {off : Nat} (inside : off < 0x100000) (aligned : off % 4 = 0) (s : State) (p : Port) :
    exec (.responseRead p off) s = s.to (s.dev.readWindow p off s.pending.head?) :=
  (exec_eq_run _ s).trans (access_next inside aligned s _)

theorem exec_noticeRead {off : Nat} (inside : off < 0x100000) (aligned : off % 4 = 0) (s : State) (p : Port) :
    exec (.noticeRead p off) s = s.to (s.dev.readWindow p off s.pending.head?) :=
  (exec_eq_run _ s).trans (access_next inside aligned s _)

/-- Two changes of a port in turn. -/
theorem Device.modPort_modPort (d : Device) (p : Port) (f g : PortState → PortState) :
    (d.modPort p f).modPort p g = d.modPort p fun x => g (f x) := by
  cases p <;> rfl

/-- A read of the response area (R175). -/
theorem Device.readResponse_eq (d : Device) (p : Port) (off : Nat) :
    d.readResponse p off = d.setPort p { d.port p with
      bus := wordOf (slice (d.port p).responseArea (off - 0x20) 4)
      responses := if off = 0x3C then (d.port p).responses.tail else (d.port p).responses } := by
  unfold Device.readResponse Device.returnWord
  simp only
  split
  · rw [Device.modPort_modPort]; rfl
  · rfl

/-- A read of the notice area (R177). -/
theorem Device.readNotice_eq (d : Device) (p : Port) (off : Nat) :
    d.readNotice p off =
      if off ≠ 0x5C ∨ (d.port p).notices = [] then
        d.setPort p { d.port p with bus := wordOf (slice (d.port p).noticeArea (off - 0x40) 4) }
      else
        (d.setPort p { d.port p with
          bus := wordOf (slice (d.port p).noticeArea (off - 0x40) 4), notices := (d.port p).notices.tail
          }).noticeWasRead p := by
  unfold Device.readNotice Device.returnWord
  simp only
  by_cases head : off = 0x5C ∧ (d.port p).notices ≠ []
  · rw [if_pos head, if_neg (by simpa using head), Device.modPort_modPort]
    rfl
  · rw [if_neg head, if_pos (Decidable.or_iff_not_imp_left.mpr fun h => Classical.not_not.mp fun k =>
      head ⟨Classical.not_not.mp h, k⟩)]
    rfl

theorem ResponseRecord.length_bytes (r : ResponseRecord) : r.bytes.length = 32 := by
  unfold ResponseRecord.bytes
  split <;> simp [length_beBytes]

theorem ResponseRecord.take_bytes_first {r : ResponseRecord} (h : r.index = 0) :
    r.bytes.take 6 = beBytes 2 r.response.tag.toNat ++ beBytes 1 r.response.code ++ beBytes 1 r.response.status.code
      ++ beBytes 1 r.response.result.code ++ beBytes 1 r.records := by
  unfold ResponseRecord.bytes
  rw [if_pos h]
  exact List.take_left' (by simp [length_beBytes])

theorem ResponseRecord.take_bytes_later {r : ResponseRecord} (h : r.index ≠ 0) :
    r.bytes.take 4 = beBytes 2 r.response.tag.toNat ++ beBytes 1 r.response.code ++ beBytes 1 r.index := by
  unfold ResponseRecord.bytes
  rw [if_neg h]
  exact List.take_left' (by simp [length_beBytes])

/-- The header of a notice record, and its fields in the bytes after it (R177). -/
theorem Notice.bytes_spec (n : Notice) :
    n.bytes.length = 32
      ∧ n.bytes.take 9 = beBytes 1 n.body.kindByte ++ beBytes 2 (n.tunnel.getD 0xFFFF) ++ beBytes 6 n.stamp.toNat
      ∧ ∀ i, i < 23 → i < (n.fields.flatMap Config.fieldBytes).length →
        n.bytes[9 + i]? = (n.fields.flatMap Config.fieldBytes)[i]? := by
  unfold Notice.bytes
  simp only
  generalize n.fields.flatMap Config.fieldBytes = fields
  have header : (beBytes 1 n.body.kindByte ++ beBytes 2 (n.tunnel.getD 0xFFFF) ++ beBytes 6 n.stamp.toNat).length = 9 := by
    simp [length_beBytes]
  refine ⟨by rw [List.length_append, header]; simp, List.take_left' header, fun i low inside => ?_⟩
  rw [List.getElem?_append_right (by omega), header, Nat.add_sub_cancel_left, List.getElem?_map,
    List.getElem?_range low, Option.map_some, List.getElem?_eq_getElem inside, getD_of_lt _ _ inside]

/-- Settles O19: the word of the head record, what the removal of a notice brings, and the layout of the records. -/
theorem readsShowTheHeads : Obligations.ReadsShowTheHeads := by
  refine ⟨fun s p off aligned => ?_, fun r => ⟨r.length_bytes, r.take_bytes_first, r.take_bytes_later⟩,
    fun st => by cases st <;> rfl, fun o => by cases o <;> rfl, fun n => ?_⟩
  · intro x responseArea noticeArea
    refine ⟨fun low high => ?_, fun outside => ?_, fun low high => ?_⟩
    · rw [exec_responseRead (by omega) aligned, Device.readWindow, if_neg (by omega), if_pos high,
        Device.readResponse_eq]
      rfl
    · rw [exec_responseRead (by omega) aligned, Device.readWindow]
      by_cases request : off < 0x20
      · rw [if_pos request]
        rfl
      · rw [if_neg request, if_neg (by omega), if_neg (by omega), if_neg (by omega), if_neg]
        · rfl
        · simp only [inCellWindow, Bool.and_eq_true, bne_iff_ne, decide_eq_true_eq, not_and]
          intro other
          have := outside.resolve_left request
          simp only [other, or_false] at this
          omega
    · intro y
      rw [exec_noticeRead (by omega) aligned, Device.readWindow, if_neg (by omega), if_neg (by omega), if_pos high,
        Device.readNotice_eq, State.to_ite]
      cases p <;> rfl
  · obtain ⟨tunnel, stamp, body⟩ := n
    cases body <;> exact Notice.bytes_spec _

/-! ### The status word -/

/-- The numbers that lie in the fields of the status word's bits (R176). -/
theorem statusWord_fields {a b c e : Bool} {q r n : Nat} (hq : q ≤ 16) (hr : r ≤ 32) (hn : n ≤ 128) :
    let w := BitVec.ofNat 32 (bit a + 2 * bit b + 4 * bit c + 8 * bit e + 2 ^ 8 * q + 2 ^ 16 * r + 2 ^ 24 * n)
    w.getLsbD 0 = a ∧ w.getLsbD 1 = b ∧ w.getLsbD 2 = c ∧ w.getLsbD 3 = e
      ∧ (w.extractLsb' 4 4).toNat = 0 ∧ (w.extractLsb' 8 5).toNat = q ∧ (w.extractLsb' 13 3).toNat = 0
      ∧ (w.extractLsb' 16 6).toNat = r ∧ (w.extractLsb' 22 2).toNat = 0 ∧ (w.extractLsb' 24 8).toNat = n := by
  intro w
  have low : ∀ b : Bool, bit b ≤ 1 ∧ decide (bit b = 1) = b := by decide
  obtain ⟨ha, da⟩ := low a
  obtain ⟨hb, db⟩ := low b
  obtain ⟨hc, dc⟩ := low c
  obtain ⟨he, de⟩ := low e
  have value : w.toNat = bit a + 2 * bit b + 4 * bit c + 8 * bit e + 256 * q + 65536 * r + 16777216 * n :=
    (BitVec.toNat_ofNat _ _).trans (Nat.mod_eq_of_lt (by omega))
  have flag : ∀ i, w.getLsbD i = decide (w.toNat / 2 ^ i % 2 = 1) := fun i => Nat.testBit_eq_decide_div_mod_eq
  have field : ∀ i l, (w.extractLsb' i l).toNat = w.toNat / 2 ^ i % 2 ^ l := fun i l => by
    rw [BitVec.extractLsb'_toNat, Nat.shiftRight_eq_div_pow]
  have at0 : w.toNat / 2 ^ 0 % 2 = bit a := by omega
  have at1 : w.toNat / 2 ^ 1 % 2 = bit b := by omega
  have at2 : w.toNat / 2 ^ 2 % 2 = bit c := by omega
  have at3 : w.toNat / 2 ^ 3 % 2 = bit e := by omega
  have byte : ∀ k, w.toNat / 2 ^ (8 + k) = (q + 256 * r + 65536 * n) / 2 ^ k := fun k => by
    rw [Nat.pow_add, ← Nat.div_div_eq_div_mul]
    exact congrArg (· / 2 ^ k) (by omega)
  refine ⟨by rw [flag, at0, da], by rw [flag, at1, db], by rw [flag, at2, dc], by rw [flag, at3, de], ?_, ?_, ?_, ?_,
    ?_, ?_⟩ <;> rw [field]
  · omega
  · rw [byte 0]; omega
  · rw [byte 5]; omega
  · rw [byte 8]; omega
  · rw [byte 14]; omega
  · rw [byte 16]; omega

/-- Settles O20: the word is the one read, and the three latches are cleared after it. -/
theorem statusReadsClearThreeLatches : Obligations.StatusReadsClearThreeLatches := by
  intro s p requests responses notices x
  refine ⟨x.statusWord, ?_, statusWord_fields (Nat.sub_le _ _) responses notices⟩
  show s.to (s.dev.readStatus p) = _
  unfold Device.readStatus Device.returnWord
  rw [Device.modPort_modPort]
  rfl

/-! ### The cell window -/

theorem exec_cellWindowRead {off : Nat} (inside : off < 0x100000) (aligned : off % 4 = 0) (s : State) (p : Port) :
    exec (.cellWindowAccess p off none) s = s.to (s.dev.readWindow p off s.pending.head?) :=
  (exec_eq_run _ s).trans (access_next inside aligned s _)

theorem Device.readWindow_cell {d : Device} {p : Port} {off : Nat} (low : 0x80000 ≤ off) (next : Option Instr) :
    d.readWindow p off next = if p ≠ .operations then d.readCell p off next else d.returnWord p 0 := by
  unfold Device.readWindow
  rw [if_neg (by omega), if_neg (by omega), if_neg (by omega), if_neg (by omega)]
  refine ite_congr_iff ?_ rfl rfl
  simp [inCellWindow, low]

theorem Device.writeWindow_cell {d : Device} {p : Port} {off : Nat} (low : 0x80000 ≤ off) (w : BusWord)
    (next : Option Instr) :
    d.writeWindow p off w next = if p ≠ .operations then d.writeCell p off w next else d := by
  unfold Device.writeWindow
  rw [if_neg (by omega), if_neg (by omega)]
  refine ite_congr_iff ?_ rfl rfl
  simp [inCellWindow, low]

/-- The commands in whose events frames complete. -/
theorem Device.completedBy_iff (s : State) (c : Instr) (t : State) :
    s.dev.completedBy c = some t.dev ∧ t.pending = s.pending ↔
      (c = .outboundCompletion ∨ c = .inboundCompletion ∨ c = .derivationComplete ∨ ∃ o, c = .closeTunnel o)
        ∧ exec c s = .next t := by
  constructor
  · rintro ⟨h, queue⟩
    have e := Device.completedBy_exec s c t.dev h
    refine ⟨?_, e.trans ?_⟩
    · unfold Device.completedBy at h
      split at h
      · exact .inl rfl
      · exact .inr (.inl rfl)
      · exact .inr (.inr (.inl rfl))
      · exact .inr (.inr (.inr ⟨_, rfl⟩))
      · cases h
    · rw [← queue]
  · rintro ⟨rfl | rfl | rfl | ⟨o, rfl⟩, h⟩ <;> cases h <;> exact ⟨rfl, rfl⟩

/-- The bytes written from an address on stand at their places. -/
theorem Memory.read_writeFrom_inside (bs : List Byte) : ∀ (m : Memory) (a i : Nat), i < bs.length →
    (m.writeFrom a bs).read (a + i) = bs.getD i 0 := by
  induction bs with
  | nil => exact fun m a i h => absurd h (Nat.not_lt_zero _)
  | cons b bs ih =>
    intro m a i h
    cases i with
    | zero =>
      show ((m.write a b).writeFrom (a + 1) bs).read a = b
      rw [Memory.read_writeFrom _ _ _ _ (.inl (Nat.lt_succ_self a)), Memory.read_write, if_pos rfl]
    | succ i =>
      have := ih (m.write a b) (a + 1) i (Nat.lt_of_succ_lt_succ h)
      rw [Nat.add_right_comm] at this
      exact this

/-- The word of four bytes of a memory, returned to the bus. -/
theorem Device.returnWord_read (d : Device) (p : Port) (m : Memory) (a : Nat) :
    d.returnWord p (wordOf ((List.range 4).map fun i => m.read (a + i))) = d.setPort p { d.port p with
      bus := wordOf [m.read a, m.read (a + 1), m.read (a + 2), m.read (a + 3)] } := rfl

/-- Settles O21: an access is answered or stored where the cell is the port's, or where it meets the loss of it. -/
theorem cellWindowReachesOwnedCellsOnly : Obligations.CellWindowReachesOwnedCellsOnly := by
  intro s p off w aligned low inside x a mine held meets stores answers
  have mine_iff : ∀ d : Device, mine d ↔ d.store.touchable p (windowCell off) = true := fun d =>
    (CellStore.touchable_iff _ _ _).symm
  have held_iff : ∀ d : Device, held d ↔ d.engine.holdsFor p (windowCell off) = true := by
    intro d
    rw [Engine.holdsFor_iff]
    refine exists_congr fun f => and_congr_right fun _ => ?_
    rw [Frame.submittedBy_iff]
    exact and_comm
  have meets_iff : meets ↔ s.dev.meetsLoss s.pending.head? p (windowCell off) = true := by
    rw [Device.meetsLoss_iff]
    constructor
    · rintro ⟨c, t, next, completes, run, before, after, lost⟩
      obtain ⟨e, -⟩ := (Device.completedBy_iff s c t).mpr ⟨completes, run⟩
      exact ⟨c, t.dev, next, e, (held_iff _).mp before, Bool.eq_false_iff.mpr fun h => after ((held_iff _).mpr h),
        Bool.eq_false_iff.mpr fun h => lost ((mine_iff _).mpr h)⟩
    · rintro ⟨c, e, next, done, before, after, lost⟩
      obtain ⟨completes, run⟩ := (Device.completedBy_iff s c { s with dev := e }).mp ⟨done, rfl⟩
      refine ⟨c, _, next, completes, run, (held_iff _).mpr before, fun h => ?_, fun h => ?_⟩
      · rw [(held_iff e).mp h] at after; cases after
      · rw [(mine_iff e).mp h] at lost; cases lost
  have stores_iff : stores ↔ s.dev.storesWrite s.pending.head? p (windowCell off) = true := by
    show mine s.dev ∨ (_ ∧ meets) ↔ _
    rw [mine_iff, meets_iff]
    simp only [Device.storesWrite, Bool.or_eq_true, Bool.and_eq_true, decide_eq_true_eq]
    rfl
  have answers_iff : answers ↔ s.dev.answersRead s.pending.head? p (windowCell off) = true := by
    show mine s.dev ∨ meets ↔ _
    rw [mine_iff, meets_iff]
    simp only [Device.answersRead, Bool.or_eq_true]
  have meets_other : meets → p ≠ .operations := by
    rintro ⟨_, _, -, -, -, ⟨f, -, -, owner⟩, -, -⟩ rfl
    obtain ⟨-, h⟩ | ⟨-, h⟩ := owner <;> cases h
  have mine_other : mine s.dev → p ≠ .operations := by
    rintro h rfl
    obtain ⟨h, -⟩ | ⟨h, -⟩ := h <;> cases h
  rw [exec_cellWindowWrite inside aligned, exec_cellWindowRead inside aligned, Device.writeWindow_cell low,
    Device.readWindow_cell low]
  refine ⟨fun stored => ?_, fun answered => ?_, fun lost other => ?_, fun lost other => ?_, fun is => ?_⟩
  · have other : p ≠ .operations := stored.elim mine_other fun h => meets_other h.2
    rw [if_pos other, Device.writeCell, if_pos (stores_iff.mp stored)]
    refine ⟨_, rfl, fun i hi => ?_, fun k hk => ?_⟩
    · exact Memory.read_writeFrom_inside _ _ _ _ (by rwa [length_beBytes])
    · exact Memory.read_writeFrom _ _ _ _ (by rwa [length_beBytes])
  · have other : p ≠ .operations := answered.elim mine_other meets_other
    rw [if_pos other, Device.readCell, if_pos (answers_iff.mp answered)]
    exact congrArg s.to (Device.returnWord_read _ _ _ _)
  · rw [if_pos other, Device.writeCell, if_neg fun h => lost (stores_iff.mpr h)]
    rfl
  · rw [if_pos other, Device.readCell, if_neg fun h => lost (answers_iff.mpr h), Device.returnWord,
      Device.modPort_modPort]
    rfl
  · rw [if_neg (fun h => h is), if_neg (fun h => h is)]
    exact ⟨rfl, rfl⟩

/-! ### The reset of a port -/

theorem Frame.marked_traffic (f : Frame) : f.marked .traffic =
    { f with orphan := f.orphan || decide (f.party = .trafficPort), reserved := false, lost := f.lost || f.reserved } := by
  unfold Frame.marked Frame.submittedBy
  simp

theorem Frame.marked_key (f : Frame) : f.marked .key =
    { f with orphan := f.orphan || decide (f.party = .keyPort) } := by
  unfold Frame.marked Frame.submittedBy
  simp

theorem KeyRecord.untold_eq (k : KeyRecord) : k.untold =
    { k with
      renewal := match k.renewal with
        | .reported why => .unreported why
        | .unreported why => .unreported why
        | .no => .no
      expired := match k.expired with
        | .reported why => .unreported why
        | .unreported why => .unreported why
        | .no => .no
      followed := match k.followed with
        | .reported epoch => .unreported epoch
        | .unreported epoch => .unreported epoch
        | .no => .no } := by
  unfold KeyRecord.untold
  congr 1
  · cases k.renewal <;> rfl
  · cases k.expired <;> rfl
  · cases k.followed <;> rfl

theorem Latch.unreport_eq (l : Latch) : l.unreport =
    { l with report := match l.report with
      | .reported => .unreported
      | .unreported => .unreported
      | .silent => .silent } := by
  obtain ⟨report, _, _, _, _⟩ := l
  cases report <;> rfl

/-- A port reset by what its effects in the other blocks make of the emptied port (R178). -/
theorem exec_portReset {s : State} {p : Port} {reset : Device} (tag : BitVec 16)
    (effects : ((({ s.dev with buildDue := s.dev.buildDue || (decide (p = .traffic) && s.dev.trafficPlaces) } :
      Device).modPort p PortState.emptied).resetEffects p).resetOffers p = reset) :
    exec (.portReset p tag) s = s.to ((reset.modPort p fun y =>
      { y with responses := y.responses ++ [⟨⟨tag, 34, .done, .none,
          .portReset (s.dev.port p).requests.length (s.dev.cellsOfPort p).length⟩, 0, 1⟩] }).finish) := by
  show s.to (s.dev.portReset p tag) = _
  unfold Device.portReset
  simp only [effects]
  rfl

/-- The key flags of a tunnel made unreported (R53, R91, R92). -/
def Tunnel.untold (r : Tunnel) : Tunnel :=
  { r with
    next := r.next.map fun n => { n with key := n.key.untold }
    current := r.current.map fun c => { c with key := c.key.untold }
    previous := r.previous.map KeyRecord.untold }

/-- Settles O22: the port is emptied, then what the reset means to the other blocks is made (R178, R179). -/
theorem portResetEmptiesItsPort : Obligations.PortResetEmptiesItsPort := by
  intro s p tag x d owned freed orphaned silenced every untold unreport reset
  cases p with
  | traffic =>
    have frames : ∀ f : Frame, f.marked .traffic = silenced f := Frame.marked_traffic
    refine exec_portReset tag ?_
    simp only [Device.resetEffects, Device.resetOffers, Engine.marked, frames, decide_true, Bool.true_and]
    rfl
  | key =>
    have frames : ∀ f : Frame, f.marked .key = orphaned .keyPort f := Frame.marked_key
    have keys : (fun r : Tunnel => [Slot.next, .current, .previous].foldl (fun x s => x.modKey s KeyRecord.untold) r)
        = fun r => { r with next := r.next.map fun n => { n with key := untold n.key }
                            current := r.current.map fun c => { c with key := untold c.key }
                            previous := r.previous.map untold } := by
      have same : KeyRecord.untold = untold := by
        funext k
        exact k.untold_eq
      rw [← same]
      rfl
    refine exec_portReset tag ?_
    simp only [Device.resetEffects, Device.resetOffers, Engine.marked, frames, keys, reduceCtorEq, decide_false,
      Bool.false_and, Bool.or_false]
    refine congrArg (fun e => Device.modTunnels e _) ?_
    rfl
  | operations =>
    have latches : Latch.unreport = unreport := by
      funext l
      exact l.unreport_eq
    refine exec_portReset tag ?_
    simp only [Device.resetEffects, Device.resetOffers, latches, reduceCtorEq, decide_false, Bool.false_and,
      Bool.or_false]
    refine congrArg (fun e => Device.faultScan (Device.modTunnels e _) 128) ?_
    rfl

end Sys2Proof.Machine
end

/-! PROOF. The common tests and the submission of frames (R24, R97, R98, R99, R172, R173). -/
section

namespace Sys2Proof.Machine

/-! ### The tests on the cells of a frame -/

/-- The first test of a list of cells named fails: the count, a cell out of range, or a cell named twice (R24). -/
theorem cellsNamed_fails (count most : Nat) (cells : List Nat) :
    ¬ cellsNamed count most cells = true ↔
      count < 1 ∨ most < count ∨ (∃ n ∈ cells, 2048 ≤ n) ∨ ¬ cells.Nodup := by
  rw [cellsNamed_iff]
  constructor
  · intro h
    refine Classical.byContradiction fun fine => ?_
    simp only [not_or, not_exists, not_and, Nat.not_lt, Nat.not_le, Classical.not_not] at fine
    obtain ⟨low, high, below, nodup⟩ := fine
    exact h ⟨⟨⟨low, high⟩, below⟩, nodup⟩
  · rintro bad ⟨⟨⟨low, high⟩, below⟩, nodup⟩
    obtain h | h | ⟨n, hn, h⟩ | h := bad
    · omega
    · omega
    · exact absurd (below n hn) (Nat.not_lt.mpr h)
    · exact h nodup

/-- The tests of R24 that a frame request and its cells pass or fail in order, the request's own before them. -/
theorem Device.cellTests_eq (d : Device) (o : Owner) (count : Nat) (cells : List Nat) (size : Nat) :
    d.cellTests o count cells size =
      if count < 1 ∨ 6 < count ∨ (∃ n ∈ cells, 2048 ≤ n) ∨ ¬ cells.Nodup then some .badRequest
      else if ∃ n ∈ cells, (d.store.cell n).state ≠ .claimed o then some .notOwner
      else if cells.length < (size + 255) / 256 then some .tooFewCells
      else none := by
  unfold Device.cellTests
  refine ite_congr_iff (cellsNamed_fails count 6 cells) rfl (ite_congr_iff ?_ rfl rfl)
  simp

theorem classOf_eq (n : Nat) : classOf n = if 1 < n then none else some (if n = 0 then .settle else .bulk) := by
  match n with
  | 0 => rfl
  | 1 => rfl
  | _ + 2 => exact (if_pos (by omega)).symm

theorem Engine.hasRoom_eq_false (e : Engine) (k : Queue) : ¬ e.hasRoom k = true ↔ k.capacity ≤ (e.queue k).length := by
  simp [Engine.hasRoom]

/-- A choice made before another with the same outcome is one choice. -/
theorem ite_or_left {α : Type} (a b : Prop) [Decidable a] [Decidable b] [Decidable (a ∨ b)] (x y : α) :
    (if a ∨ b then x else y) = if a then x else if b then x else y := by
  by_cases a <;> simp_all

theorem ite_or_or_left {α : Type} (a b c : Prop) [Decidable a] [Decidable b] [Decidable c] [Decidable (a ∨ b ∨ c)]
    (x y : α) : (if a ∨ b ∨ c then x else y) = if a ∨ b then x else if c then x else y := by
  by_cases a <;> by_cases b <;> simp_all

/-- The submission of a frame after its tests, by the conditions of R24. -/
theorem Device.submission_eq (d : Device) (o : Owner) (count : Nat) (cells : List Nat) (size : Nat) (next : Taken) :
    (match d.cellTests o count cells size with
      | some st => Taken.refuse st
      | none => next) =
      if count < 1 ∨ 6 < count ∨ (∃ n ∈ cells, 2048 ≤ n) ∨ ¬ cells.Nodup then .refuse .badRequest
      else if ∃ n ∈ cells, (d.store.cell n).state ≠ .claimed o then .refuse .notOwner
      else if cells.length < (size + 255) / 256 then .refuse .tooFewCells
      else next := by
  rw [Device.cellTests_eq]
  symm
  split
  · rfl
  split
  · rfl
  split <;> rfl

/-- SEND_FRAME, by its tests (R97). -/
theorem Device.sendFrame_eq (d : Device) (q : Request) :
    let class_ := q.num 0 1
    let k : Queue := if class_ = 0 then .settle else .bulk
    let length := q.num 1 2
    let count := q.num 3 1
    let cells := q.numbers 3
    d.sendFrame q =
      if 1 < class_ ∨ 1472 < length ∨ count < 1 ∨ 6 < count ∨ (∃ n ∈ cells, 2048 ≤ n) ∨ ¬ cells.Nodup then
        .refuse .badRequest
      else if ∃ n ∈ cells, (d.store.cell n).state ≠ .claimed .traffic then .refuse .notOwner
      else if cells.length < (length + 32 + 255) / 256 then .refuse .tooFewCells
      else if k.capacity ≤ (d.engine.queue k).length then .refuse .queueFull
      else .wait (d.submit k ⟨.trafficPort, q.tag, q.tunnel, .outbound .data, cells, d.store.readSeq cells 0 length,
        d.clock, false, false, false, none⟩) := by
  intro class_ k length count cells
  unfold Device.sendFrame
  simp only [classOf_eq]
  rw [ite_or_left]
  by_cases unknown : 1 < class_
  · rw [if_pos unknown, if_pos unknown]
  · rw [if_neg unknown, if_neg unknown, ite_or_left]
    refine ite_congr_iff Iff.rfl rfl ((d.submission_eq .traffic count cells (length + 32) _).trans ?_)
    simp only [← Engine.hasRoom_eq_false, ite_not]
    rfl

/-- RECEIVE_FRAME, by its tests (R98). -/
theorem Device.receiveFrame_eq (d : Device) (q : Request) :
    let class_ := q.num 0 1
    let size := q.num 1 2
    let count := q.num 3 1
    let cells := q.numbers 3
    let kind := d.kindByte cells
    let k := inboundQueue kind (if class_ = 0 then .settle else .bulk)
    d.receiveFrame q =
      if 1 < class_ ∨ size < 32 ∨ 1504 < size ∨ count < 1 ∨ 6 < count ∨ (∃ n ∈ cells, 2048 ≤ n) ∨ ¬ cells.Nodup then
        .refuse .badRequest
      else if ∃ n ∈ cells, (d.store.cell n).state ≠ .claimed .traffic then .refuse .notOwner
      else if cells.length < (size + 255) / 256 then .refuse .tooFewCells
      else if k.capacity ≤ (d.engine.queue k).length then .refuse .queueFull
      else .wait (d.submit k ⟨.trafficPort, q.tag, q.tunnel, .inbound kind, cells, d.store.readSeq cells 0 size,
        d.clock, false, false, false, none⟩) := by
  intro class_ size count cells kind k
  unfold Device.receiveFrame
  simp only [classOf_eq]
  rw [ite_or_left]
  by_cases unknown : 1 < class_
  · rw [if_pos unknown, if_pos unknown]
  · rw [if_neg unknown, if_neg unknown, ite_or_or_left]
    have outside : (¬ within 32 1504 size = true) ↔ size < 32 ∨ 1504 < size := by
      simp only [within, Bool.and_eq_true, decide_eq_true_eq]
      omega
    refine ite_congr_iff outside rfl ((d.submission_eq .traffic count cells size _).trans ?_)
    simp only [← Engine.hasRoom_eq_false, ite_not]
    rfl

/-- SEND_DIALOGUE, by its tests (R99). -/
theorem Device.sendDialogue_eq (d : Device) (q : Request) :
    let length := q.num 0 2
    let count := q.num 2 1
    let cells := q.numbers 2
    d.sendDialogue q =
      if 1472 < length ∨ count < 1 ∨ 6 < count ∨ (∃ n ∈ cells, 2048 ≤ n) ∨ ¬ cells.Nodup then .refuse .badRequest
      else if ∃ n ∈ cells, (d.store.cell n).state ≠ .claimed .key then .refuse .notOwner
      else if cells.length < (length + 32 + 255) / 256 then .refuse .tooFewCells
      else if 64 ≤ d.engine.control.length then .refuse .queueFull
      else if 64 ≤ d.traffic.notices.length + d.generatedReserved then .refuse .noticeFull
      else .wait (d.submit .control ⟨.keyPort, q.tag, q.tunnel, .outbound .dialogue, cells,
        d.store.readSeq cells 0 length, d.clock, true, false, false, none⟩) := by
  intro length count cells
  unfold Device.sendDialogue
  rw [ite_or_left]
  refine ite_congr_iff Iff.rfl rfl ((d.submission_eq .key count cells (length + 32) _).trans ?_)
  refine ite_congr_iff Iff.rfl rfl (ite_congr_iff Iff.rfl rfl (ite_congr_iff Iff.rfl rfl ?_))
  refine ite_congr_iff (d.engine.hasRoom_eq_false .control) rfl (ite_congr_iff ?_ rfl rfl)
  rw [Bool.not_eq_true, Device.generatedRoom, decide_eq_false_iff_not, Nat.not_lt]
  rfl

/-- Settles O28. -/
theorem sendFrameQueuesADataFrame : Obligations.SendFrameQueuesADataFrame := by
  intro s q posed class_ k length count cells d f placed
  rw [exec_posed (c := .sendFrame .traffic) rfl posed, Device.sendFrame_eq]
  have room : k.capacity = if class_ = 0 then 384 else 576 := by
    simp only [k]
    split <;> rfl
  have settles : k = .settle ↔ class_ = 0 := by
    simp only [k]
    split <;> simp_all
  simp only [Device.conclude_ite, State.to_ite, Device.store_taken, Device.engine_taken, Device.clock_taken,
    Device.conclude_refuse, Device.conclude_wait]
  refine ite_congr_iff Iff.rfl rfl (ite_congr_iff Iff.rfl rfl (ite_congr_iff Iff.rfl rfl (ite_congr_iff ?_ rfl ?_)))
  · rw [← room]
  · refine congrArg (fun e : Device => s.to e.finish) ?_
    unfold Device.submit
    simp only
    exact ite_congr_iff settles rfl rfl

/-- Settles O29. -/
theorem receiveFrameQueuesByKind : Obligations.ReceiveFrameQueuesByKind := by
  intro s q posed class_ size count cells kind k room d f placed
  rw [exec_posed (c := .receiveFrame .traffic) rfl posed, Device.receiveFrame_eq]
  have capacity : k.capacity = room := by
    simp only [room]
    cases k <;> rfl
  simp only [Device.conclude_ite, State.to_ite, Device.store_taken, Device.engine_taken, Device.clock_taken,
    Device.conclude_refuse, Device.conclude_wait]
  refine ite_congr_iff Iff.rfl rfl (ite_congr_iff Iff.rfl rfl (ite_congr_iff Iff.rfl rfl (ite_congr_iff ?_ rfl ?_)))
  · rw [← capacity]
    rfl
  · refine congrArg (fun e : Device => s.to e.finish) ?_
    unfold Device.submit
    rfl

/-- Settles O30. -/
theorem sendDialogueReservesAPlace : Obligations.SendDialogueReservesAPlace := by
  intro s q posed length count cells d f
  rw [exec_posed (c := .sendDialogue .key) rfl posed, Device.sendDialogue_eq]
  simp only [Device.conclude_ite, State.to_ite, Device.store_taken, Device.engine_taken, Device.clock_taken,
    Device.conclude_refuse, Device.conclude_wait]
  refine ite_congr_iff Iff.rfl rfl (ite_congr_iff Iff.rfl rfl (ite_congr_iff Iff.rfl rfl
    (ite_congr_iff Iff.rfl rfl (ite_congr_iff ?_ rfl ?_))))
  · exact Iff.rfl
  · refine congrArg (fun e : Device => s.to e.finish) ?_
    unfold Device.submit
    rfl

/-! ### The common tests -/

/-- The table of the requests taken names the port and the code of the statement's own table. -/
theorem requestOf_of_requestTaken {c : Instr} {p : Port} {code : Nat} (h : requestTaken c = some (p, code)) :
    ∃ own, requestOf c = some (p, code, own) := by
  cases c <;> cases h <;> exact ⟨_, rfl⟩

/-- The head of a queue waits while the port is not READY or has not the places (R173). -/
theorem Device.takeRequest_waits {d : Device} {p : Port} {code : Nat} {row : CatalogueRow}
    (found : catalogue code = some row) (own : Device → Request → Taken)
    (waits : (d.port p).ready = false ∨ (d.port p).requests = []
      ∨ 32 < (d.port p).responses.length + (d.port p).reserved + row.places) :
    d.takeRequest p code own = d := by
  have none_taken : d.takeable p code row.places = none := by
    unfold Device.takeable Device.headRequest PortState.canReserve
    obtain unready | empty | full := waits
    · rw [unready]
      rfl
    · rw [empty]
      cases (d.port p).ready <;> rfl
    · have : ¬ (d.port p).responses.length + (d.port p).reserved + row.places ≤ Config.responsePlaces :=
        Nat.not_le.mpr full
      split
      · rw [if_neg fun h => this (of_decide_eq_true h.2)]
      · rfl
  unfold Device.takeRequest
  simp only [found, none_taken]

theorem Request.device_iff (q : Request) : q.device = true ↔ q.code = 19 ∧ q.flags = 1 := decide_eq_true_iff

/-- The bytes of a record at two places in turn. -/
theorem slice_one {bs : List Byte} {off : Nat} (h : off < bs.length) : slice bs off 1 = [bs.getD off 0] := by
  unfold slice
  rw [List.drop_eq_getElem_cons h, getD_of_lt _ _ h]
  rfl

theorem slice_two {bs : List Byte} {off : Nat} (h : off + 1 < bs.length) :
    slice bs off 2 = [bs.getD off 0, bs.getD (off + 1) 0] := by
  unfold slice
  rw [List.drop_eq_getElem_cons (Nat.lt_of_succ_lt h), List.drop_eq_getElem_cons h,
    getD_of_lt _ _ (Nat.lt_of_succ_lt h), getD_of_lt _ _ h]
  rfl

theorem beNat_one (a : Byte) : beNat [a] = a.toNat := by simp [beNat]

theorem beNat_two (a b : Byte) : beNat [a, b] = a.toNat * 256 + b.toNat := by simp [beNat]

/-- What a record of 32 bytes spells (R172). -/
theorem Request.ofRecord_fields (record : List Byte) (length : record.length = 32) :
    let b (i : Nat) : Nat := (record.getD i 0).toNat
    let q := Request.ofRecord record
    q.tag.toNat = b 0 * 256 + b 1 ∧ q.code = b 2 ∧ q.flags = b 3 ∧ q.tunnel = b 4 * 256 + b 5
      ∧ q.operands = record.drop 6 := by
  intro b q
  have byte : ∀ i, b i < 256 := fun i => (record.getD i 0).isLt
  refine ⟨?_, ?_, ?_, ?_, ?_⟩
  · show (BitVec.ofNat 16 (beNat (slice record 0 2))).toNat = _
    rw [slice_two (by omega), beNat_two, BitVec.toNat_ofNat]
    have := byte 0
    have := byte 1
    exact Nat.mod_eq_of_lt (by simp only [b] at *; omega)
  · exact (congrArg beNat (slice_one (by omega))).trans (beNat_one _)
  · exact (congrArg beNat (slice_one (by omega))).trans (beNat_one _)
  · exact (congrArg beNat (slice_two (by omega))).trans (beNat_two _ _)
  · exact List.take_of_length_le (Nat.le_of_eq (by rw [List.length_drop, length]))

/-- The number of records of a response: one where the body is empty, two for a long list of cells, and otherwise at
most as many as it holds places (R175). -/
theorem recordsFor_spec (places : Nat) (b : Body) :
    1 ≤ recordsFor places b ∧ (b = .empty → recordsFor places b = 1)
      ∧ (∀ cells, b = .cells cells → recordsFor places b = if cells.length ≤ 13 then 1 else 2)
      ∧ ((∀ cells, b ≠ .cells cells) → recordsFor places b ≤ max 1 places) := by
  have other : 1 ≤ recordsOf places b ∧ recordsOf places b ≤ max 1 places := by
    unfold recordsOf
    split <;> omega
  cases b with
  | empty => exact ⟨Nat.le_refl 1, fun _ => rfl, nofun, fun _ => Nat.le_max_left 1 places⟩
  | headroom n => exact ⟨Nat.le_refl 1, fun _ => rfl, nofun, fun _ => Nat.le_max_left 1 places⟩
  | cells ns =>
    refine ⟨?_, nofun, fun cells e => ?_, fun none => absurd rfl (none ns)⟩
    · show 1 ≤ if ns.length ≤ 13 then 1 else 2
      split <;> omega
    · cases e
      rfl
  | _ => exact ⟨other.1, nofun, nofun, fun _ => other.2⟩

/-- The places of a code, by its row of the catalogue. -/
theorem places_of {code places : Nat}
    (h : (∃ row, catalogue code = some row ∧ row.places = places) ∨ (catalogue code = none ∧ places = 1)) :
    ((catalogue code).map (·.places)).getD 1 = places := by
  obtain ⟨row, found, rfl⟩ | ⟨missing, rfl⟩ := h
  · rw [found]
    rfl
  · rw [missing]
    rfl

/-- Settles O23. -/
theorem commonTestsComeFirst : Obligations.CommonTestsComeFirst := by
  refine ⟨fun c s p code row is found => ?_, fun s p q offers unknown => ?_, Request.ofRecord_fields, ⟨by decide, ?_⟩,
    fun d p q r places h => ?_⟩
  · obtain ⟨own, request⟩ := requestOf_of_requestTaken is
    rw [exec_request request]
    refine ⟨fun waits => ?_, fun q offers named => ?_⟩
    · rw [Device.takeRequest_waits found own waits]
      rfl
    · subst named
      intro toDevice
      have plain : ¬ toDevice → ¬ q.device = true := fun h k => h (q.device_iff.mp k)
      refine ⟨fun port => ?_, fun port flags other => ?_, fun port flags names big => ?_⟩
      · rw [offers.takeRequest_refused found (if_pos port) own]
      · refine congrArg s.to (offers.takeRequest_refused found ?_ own)
        exact (if_neg (Classical.not_not.mpr port)).trans (if_pos ⟨flags, plain other⟩)
      · refine congrArg s.to (offers.takeRequest_refused found ?_ own)
        have other : ¬ q.device = true := plain fun h => absurd (flags.symm.trans h.2) (by decide)
        exact (if_neg (Classical.not_not.mpr port)).trans
          ((if_neg fun h => h.1 flags).trans (if_pos ⟨names, other, big⟩))
  · obtain ⟨ready, head, room⟩ := offers
    have reserve : (s.dev.port p).canReserve 1 = true := decide_eq_true room
    have is : s.dev.headRequest p = some q := by
      unfold Device.headRequest
      rw [if_pos ready, head]
    show s.to (s.dev.takeUnknown p) = _
    unfold Device.takeUnknown Device.answered Device.taken Device.respond
    simp only [is, unknown, reserve, and_self, if_true]
    rfl
  · rintro code (rfl | big)
    · rfl
    · obtain ⟨n, rfl⟩ := Nat.exists_eq_add_of_lt big
      rw [Nat.add_comm 33, Nat.add_assoc]
      rfl
  · have held := places_of h
    refine ⟨?_, rfl, recordsFor places r.body, ?_, ?_⟩
    · unfold Device.taken
      rw [held]
      rfl
    · unfold Device.respond
      rw [held]
      rfl
    · exact recordsFor_spec places r.body

end Sys2Proof.Machine
end

/-! PROOF. Takes: the checks made of a frame, the choice of a queue, and the frame limits at a bind (R11, R26, R27, R28,
R34, R35, R76, R82, R83, R102, R103, R104, R105, R108, R110, R111). -/
section

namespace Sys2Proof.Machine

/-! ### Binds -/

/-- Settles O35: by the state of the renewal flag and the two limits. -/
theorem bindsTestTheFrameLimits : Obligations.BindsTestTheFrameLimits := by
  refine ⟨fun c p => ?_, fun d t => ⟨fun none_ => ?_, fun c some_ => ?_⟩⟩
  · unfold CurrentKey.bind
    simp only
    by_cases hard : p.hardFrames ≤ c.key.outCount + 1 <;> by_cases soft : p.softFrames ≤ c.key.outCount + 1
      <;> cases renewal : c.key.renewal <;> simp [hard, soft, Flag.raise, renewal]
  · unfold Device.bindOutbound
    rw [none_]
  · unfold Device.bindOutbound
    rw [some_]

/-! ### The choice of a queue -/

theorem Engine.choice_of_mode (e : Engine) :
    (e.mode = .base .normal → e.choice = if e.turn = .bulk then (if e.bulk = [] then .settle else .bulk)
        else if e.settle = [] then .bulk else .settle)
      ∧ (e.mode = .base .settleFirst → e.choice = if e.settle = [] then .bulk else .settle)
      ∧ ∀ back n, e.mode = .rescue back n → e.choice = if e.bulk = [] then .settle else .bulk := by
  have other : ∀ q, e.orOther q = match q with
      | .settle => if e.settle = [] then .bulk else .settle
      | .bulk => if e.bulk = [] then .settle else .bulk
      | .control => .control := by
    intro q
    cases q <;> simp only [Engine.orOther, List.isEmpty_iff]
  refine ⟨fun h => ?_, fun h => ?_, fun back n h => ?_⟩
  · unfold Engine.choice
    simp only [h, other]
    cases e.turn <;> rfl
  · unfold Engine.choice
    simp only [h, other]
  · unfold Engine.choice
    simp only [h, other]

/-- The tests after a take leave the turn pointer. -/
theorem Engine.turn_tests (e : Engine) :
    e.exitTest.turn = e.turn ∧ e.emptyTest.turn = e.turn ∧ e.countBatch.turn = e.turn := by
  unfold Engine.exitTest Engine.emptyTest Engine.countBatch
  refine ⟨?_, ?_, ?_⟩ <;> repeat' split
  all_goals rfl

theorem Engine.turn_afterTake (e : Engine) (q : Queue) :
    (e.afterTake q).turn = match e.mode with
      | .base .normal => e.turn.next
      | .base .settleFirst | .rescue _ _ => e.turn := by
  unfold Engine.afterTake
  simp only
  cases q <;> simp only [(Engine.turn_tests _).1, (Engine.turn_tests _).2.1, (Engine.turn_tests _).2.2] <;>
    cases e.mode with
    | base m => cases m <;> rfl
    | rescue back n => rfl

/-- The mode after a take, by the mode of the choice (R104, R105). -/
theorem Engine.mode_afterTake (e : Engine) :
    (e.mode = .base .normal → ∀ q, (e.afterTake q).mode = .base .normal)
      ∧ (e.mode = .base .settleFirst →
        (e.afterTake .settle).mode = (if e.settle.length ≤ e.marks.low then .base .normal else .base .settleFirst)
          ∧ (e.afterTake .bulk).mode = .base .settleFirst)
      ∧ ∀ back n, e.mode = .rescue back n →
        (e.afterTake .settle).mode =
            .rescue (if back = .settleFirst ∧ e.settle.length ≤ e.marks.low then .normal else back) n
          ∧ (e.afterTake .bulk).mode =
            if e.marks.rescueBatch ≤ n + 1 ∨ e.bulk = [] then .base back else .rescue back (n + 1) := by
  refine ⟨fun h q => ?_, fun h => ⟨?_, ?_⟩, fun back n h => ⟨?_, ?_⟩⟩
  · unfold Engine.afterTake
    rw [h]
    cases q <;> simp only [Engine.exitTest, Engine.countBatch, Engine.emptyTest, h] <;> split <;> simp [h]
  · unfold Engine.afterTake
    rw [h]
    simp only [Engine.exitTest, h]
    split <;> simp [h]
  · unfold Engine.afterTake
    rw [h]
    simp only [Engine.countBatch, Engine.emptyTest, h]
  · unfold Engine.afterTake
    rw [h]
    simp only [Engine.exitTest, h]
    by_cases low : e.settle.length ≤ e.marks.low <;> cases back <;> simp [low, h]
  · unfold Engine.afterTake
    rw [h]
    simp only [Engine.countBatch, Engine.emptyTest, h]
    by_cases full : e.marks.rescueBatch ≤ n + 1 <;> cases empty : e.bulk <;> simp [full, empty]

theorem Device.rescueTest_eq (d : Device) :
    let late := ∃ f rest, d.engine.bulk = f :: rest ∧ d.engine.marks.rescueLimit ≤ (d.clock - f.queuedAt).toNat
    (∀ m, d.engine.mode = .base m →
      (late → d.rescueTest =
        { d with engine := { d.engine with mode := .rescue m 0 } }.give .bulkRescueEntries none)
        ∧ (¬ late → d.rescueTest = d))
      ∧ ∀ back n, d.engine.mode = .rescue back n → d.rescueTest = d := by
  intro late
  have is : late ↔ d.bulkLate = true := by
    simp only [late, Device.bulkLate]
    cases d.engine.bulk with
    | nil => simp
    | cons f rest => simp only [List.cons.injEq, decide_eq_true_eq]; exact ⟨by rintro ⟨_, _, ⟨rfl, rfl⟩, h⟩; exact h,
        fun h => ⟨f, rest, ⟨rfl, rfl⟩, h⟩⟩
  refine ⟨fun m h => ⟨fun l => ?_, fun l => ?_⟩, fun back n h => ?_⟩
  · unfold Device.rescueTest
    rw [h]
    exact if_pos (is.mp l)
  · unfold Device.rescueTest
    rw [h]
    exact if_neg fun k => l (is.mpr k)
  · unfold Device.rescueTest
    rw [h]

/-- The work that an event leaves, one attempt or take of it made (R102, R144; logs 15 and 35). -/
theorem Device.settle_eq (d : Device) :
    d.settle = if d.buildDue ∧ d.proofWaits then d.buildAttempt.settle
      else if d.engine.inWork = none ∧ d.engine.hasFrames then d.takeOne.settle
      else { d with buildDue := false } := by
  have fuel : d.settle = settleFor (d.settleFuel + 1) d :=
    settleFor_enough _ _ d d.toSettle_lt_fuel (Nat.lt_succ_of_lt d.toSettle_lt_fuel)
  rw [fuel, settleFor]
  have enough : ∀ e : Device, e.toSettle < d.toSettle → settleFor d.settleFuel e = e.settle := fun e h =>
    settleFor_enough _ _ e (Nat.lt_trans h d.toSettle_lt_fuel) e.toSettle_lt_fuel
  by_cases attempt : d.buildDue ∧ d.proofWaits
  · rw [if_pos attempt, if_pos attempt]
    exact enough _ (d.toSettle_buildAttempt attempt.1)
  · rw [if_neg attempt, if_neg attempt]
    by_cases take : d.engine.inWork = none ∧ d.engine.hasFrames
    · rw [if_pos take, if_pos take]
      exact enough _ (d.toSettle_takeOne take.2)
    · rw [if_neg take, if_neg take]

theorem Device.proofWaits_iff (d : Device) :
    d.proofWaits = true ↔ ∃ r, d.proofs.running = some r ∧ r.phase = .waitCell := by
  unfold Device.proofWaits
  cases d.proofs.running <;> simp

theorem Engine.hasFrames_iff (e : Engine) :
    e.hasFrames = true ↔ e.control ≠ [] ∨ e.settle ≠ [] ∨ e.bulk ≠ [] := by
  unfold Engine.hasFrames
  cases e.control <;> cases e.settle <;> cases e.bulk <;> simp

/-- Settles O33. -/
theorem theModeChoosesTheQueue : Obligations.TheModeChoosesTheQueue := by
  refine ⟨fun e => ?_, fun d => ?_⟩
  · obtain ⟨choice_normal, choice_settle, choice_rescue⟩ := e.choice_of_mode
    obtain ⟨mode_normal, mode_settle, mode_rescue⟩ := e.mode_afterTake
    refine ⟨fun h => ⟨choice_normal h, fun q => ?_, mode_normal h⟩, fun h => ⟨choice_settle h, fun q => ?_, mode_settle h⟩,
      fun back n h => ⟨choice_rescue back n h, fun q => ?_, mode_rescue back n h⟩⟩ <;> rw [e.turn_afterTake, h]
    cases e.turn <;> rfl
  · intro enter late
    obtain ⟨rescue_base, rescue_rescue⟩ := d.rescueTest_eq
    refine ⟨rescue_base, rescue_rescue, fun low => if_neg (Nat.not_le.mpr low), fun high => ?_, fun f rest h => ?_,
      fun empty => ?_, ?_⟩
    · unfold Device.entryTest
      rw [if_pos high]
      refine ⟨fun h => ?_, fun n h => ?_, fun h => ?_, fun n h => ?_⟩ <;> rw [h]
    · unfold Device.takeOne
      rw [h]
    · intro e q f rest h
      unfold Device.takeOne
      rw [empty]
      simp only
      rw [show d.rescueTest.engine.queue d.rescueTest.engine.choice = f :: rest from h]
    · intro attempt take
      have is_attempt : attempt ↔ d.buildDue = true ∧ d.proofWaits = true :=
        and_congr_right fun _ => d.proofWaits_iff.symm
      have is_take : take ↔ d.engine.inWork = none ∧ d.engine.hasFrames = true :=
        and_congr_right fun _ => d.engine.hasFrames_iff.symm
      rw [d.settle_eq, is_attempt, is_take]
      exact ⟨fun a => if_pos a, fun a t => (if_neg a).trans (if_pos t), fun a t => (if_neg a).trans (if_neg t)⟩

/-! ### Checks at take -/

/-- The checks on an outbound frame (R108). -/
theorem Device.outboundCheck_eq (d : Device) (t : Nat) (kind : FrameKind) :
    let x := d.tunnel t
    d.outboundCheck t kind =
      if x.state = .closing then some .tunnelClosed
      else if ¬ (x.state = .inService ∨ (x.state = .isolated ∧ kind ≠ .data)) then some .notInService
      else if kind = .data ∧ x.outCauses ≠ ⟨false, false, false⟩ then some .outboundHeld
      else if x.current.any fun c => decide (c.state = .active ∧ c.key.retirePending = false) then none
      else some .keyUnusable := by
  intro x
  have usable : (x.current.any fun c => decide (c.state = .active ∧ c.key.retirePending = false))
      = x.current.any fun c => decide (c.state = .active) && !c.key.retirePending := by
    cases x.current <;> simp
  rw [usable]
  unfold Device.outboundCheck
  simp only [← OutCauses.isEmpty_iff, ne_eq]
  change (if ¬ (x.state = _ ∨ x.state = _ ∧ _) then some (if x.state = _ then _ else _) else _) = _
  cases state : x.state <;> simp [x]

theorem FrameKind.ofByte_of_range {n : Nat} (low : 1 ≤ n) (high : n ≤ 5) :
    ∃ k, FrameKind.ofByte n = some k ∧ (k = .data ↔ n = 1) ∧ (k = .dialogue ↔ n = 5) := by
  match n with
  | 1 => exact ⟨_, rfl, by decide⟩
  | 2 => exact ⟨_, rfl, by decide⟩
  | 3 => exact ⟨_, rfl, by decide⟩
  | 4 => exact ⟨_, rfl, by decide⟩
  | 5 => exact ⟨_, rfl, by decide⟩
  | 0 => omega
  | _ + 6 => omega

/-- The inbound columns of R35, by the kind's number. -/
theorem TunnelState.letsIn_iff (x : TunnelState) (k : FrameKind) :
    x.letsIn k = true ↔ x = .inService ∨ (x = .isolated ∧ k ≠ .data)
      ∨ ((x = .provisioned ∨ x = .failed) ∧ k = .dialogue) := by
  cases x <;> simp [TunnelState.letsIn]

theorem Header.wellFormed_iff (h : Header) (shop : Option (BitVec 24)) (size : Nat) :
    h.wellFormed shop size = true ↔ h.format = 3 ∧ 1 ≤ h.kind ∧ h.kind ≤ 5 ∧ h.direction = 2
      ∧ shop.map (·.toNat) = some h.shop ∧ h.length + 32 = size
      ∧ if h.kind = 3 ∨ h.kind = 4 then h.index ≤ 7 else h.index = 0 := by
  unfold Header.wellFormed
  by_cases c : h.kind = 3 ∨ h.kind = 4 <;> simp only [c, if_true, if_false] <;>
    simp only [Bool.and_eq_true, decide_eq_true_eq, and_assoc]

/-- The epoch lookup among CURRENT, PREVIOUS and NEXT (R76). -/
theorem Tunnel.lookup_spec (x : Tunnel) (epoch : Nat) :
    (∀ c, x.current = some c → c.key.epoch = epoch →
        x.lookup epoch = if c.state = .expired then .error .keyUnusable else .ok .current)
      ∧ ((∀ c, x.current = some c → c.key.epoch ≠ epoch) →
        (∀ k, x.previous = some k → k.epoch = epoch → k.retirePending = false → x.lookup epoch = .ok .previous)
        ∧ ((∀ k, x.previous = some k → k.epoch = epoch → k.retirePending = true) →
          (∀ n, x.next = some n → n.key.epoch = epoch → n.ready = true → n.key.retirePending = false →
            x.lookup epoch = .ok .next)
          ∧ ((∀ n, x.next = some n → n.key.epoch = epoch → n.ready = true → n.key.retirePending = true) →
            x.lookup epoch = .error .epochMiss))) := by
  unfold Tunnel.lookup
  refine ⟨fun c h e => by simp [h, e], fun hc => ?_⟩
  have current : (x.current.any fun c => c.key.epoch == epoch) = false := by
    cases is : x.current with
    | none => rfl
    | some k => simpa [and_assoc] using hc k is
  rw [current, if_neg Bool.false_ne_true]
  refine ⟨fun k h e u => by simp [h, e, u], fun hp => ?_⟩
  have previous : (x.previous.any fun k => k.epoch == epoch && !k.retirePending) = false := by
    cases is : x.previous with
    | none => rfl
    | some k => simpa [and_assoc] using hp k is
  rw [previous, if_neg Bool.false_ne_true]
  refine ⟨fun n h e r u => by simp [h, e, r, u], fun hn => ?_⟩
  have next : (x.next.any fun n => n.key.epoch == epoch && n.ready && !n.key.retirePending) = false := by
    cases is : x.next with
    | none => rfl
    | some k => simpa [and_assoc] using hn k is
  rw [next, if_neg Bool.false_ne_true]

/-- The checks on an inbound frame once its bytes have been parsed (R111). -/
theorem Device.inboundCheck_of_parses {d : Device} {f : Frame}
    (parses : f.header.wellFormed (d.tunnel f.tunnel).shop f.size = true) :
    let x := d.tunnel f.tunnel
    let h := f.header
    d.inboundCheck f =
      if ¬ (x.state = .inService ∨ (x.state = .isolated ∧ h.kind ≠ 1)
          ∨ ((x.state = .provisioned ∨ x.state = .failed) ∧ h.kind = 5)) then .error (.notInService, h.body)
      else if h.kind = 1 ∧ x.inOps = true then .error (.inboundHeld, h.body)
      else match x.lookup h.epoch with
        | .ok s => .ok s
        | .error o => .error (o, h.body) := by
  intro x h
  obtain ⟨-, low, high, -⟩ := (Header.wellFormed_iff _ _ _).mp parses
  obtain ⟨k, is, data, dialogue⟩ := FrameKind.ofByte_of_range low high
  unfold Device.inboundCheck
  simp only [parses, is, not_true_eq_false, if_false, TunnelState.letsIn_iff, ne_eq, data, dialogue]
  rfl

/-- A cell after a pass to any state: FREE cells stand (log 34). -/
theorem CellStore.cell_pass_any (c : CellStore) (st : CellState) (cells : List Nat) (k : Nat) :
    (c.pass st cells).cell k =
      if k ∈ cells ∧ (c.cell k).state ≠ .free then { c.cell k with state := st } else c.cell k := by
  by_cases other : st = .free
  · subst other
    induction cells generalizing c with
    | nil => simp [CellStore.pass]
    | cons n cells ih =>
      unfold CellStore.pass CellStore.passOne
      rw [ih]
      by_cases free : (c.cell n).state = .free
      · rw [if_pos free]
        by_cases is : k = n <;> simp [is, free]
      · rw [if_neg free, CellStore.cell_setCell]
        by_cases is : k = n
        · subst is
          simp [free]
        · simp [is]
  · exact CellStore.cell_pass c st other cells k

/-- Settles O32: each part of the take by its own equation. -/
theorem checksAtTakeDecideInOrder : Obligations.ChecksAtTakeDecideInOrder := by
  refine ⟨Device.outboundCheck_eq, fun d f => ?_⟩
  intro x h told parses open_
  have parsed : parses ↔ f.header.wellFormed x.shop f.size = true := (Header.wellFormed_iff _ _ _).symm
  refine ⟨fun no => ?_, fun yes shut => ?_, fun yes let_ held => ?_, fun yes let_ free => ?_, fun d q f => ?_,
    fun d f o => ?_, fun d f o body => ?_, fun c st cells => ⟨CellStore.bytes_pass c st cells, fun k => ?_⟩⟩
  · exact if_pos fun w => no (parsed.mpr w)
  · rw [Device.inboundCheck_of_parses (parsed.mp yes)]
    exact if_pos shut
  · rw [Device.inboundCheck_of_parses (parsed.mp yes)]
    exact (if_neg (Classical.not_not.mpr let_)).trans (if_pos held)
  · obtain ⟨current, rest⟩ := x.lookup_spec h.epoch
    have looks : d.inboundCheck f = match x.lookup h.epoch with
        | .ok s => .ok s
        | .error o => .error (o, told) := by
      rw [Device.inboundCheck_of_parses (parsed.mp yes)]
      exact (if_neg (Classical.not_not.mpr let_)).trans (if_neg free)
    refine ⟨fun c is same => ?_, fun none_ => ?_⟩
    · rw [looks, current c is same]
      by_cases expired : c.state = .expired
      · rw [if_pos expired, if_pos expired]
      · rw [if_neg expired, if_neg expired]
    · obtain ⟨previous, rest⟩ := rest none_
      refine ⟨fun k is same usable => by rw [looks, previous k is same usable], fun none_ => ?_⟩
      obtain ⟨next, miss⟩ := rest none_
      exact ⟨fun n is same ready usable => by rw [looks, next n is same ready usable],
        fun none_ => by rw [looks, miss none_]⟩
  · intro x entry sequence works
    refine ⟨fun kind o is check => ?_, fun kind is check => ?_, fun b o body is check => ?_, fun b slot is check => ?_⟩
      <;> unfold Device.judgeFrame <;> simp only [is, check] <;> rfl
  · unfold Device.failOutbound
    cases f.party <;> rfl
  · unfold Device.failInbound Device.reportInbound Device.answerInbound
    cases o <;> rfl
  · exact CellStore.cell_pass_any c st cells k

end Sys2Proof.Machine
end

/-! PROOF. Completions of frames and of derivations (R7, R8, R26, R27, R54, R61, R77, R80, R109, R112, R113, R145,
R146). -/
section

namespace Sys2Proof.Machine

/-! ### Derivations -/

theorem suite_keys_ne (suite : Config.Suite) {x y : KeyDirection} (secret : BitVec 256) {shop shop' : BitVec 24}
    {epoch epoch' : Nat} (low : epoch ≤ 255) (low' : epoch' ≤ 255) (differ : x ≠ y ∨ shop ≠ shop' ∨ epoch ≠ epoch') :
    suite.key x secret shop epoch ≠ suite.key y secret shop' epoch' := by
  intro same
  obtain ⟨hx, hs, he⟩ := suite.keysDiffer x y secret shop shop' epoch epoch' low low' same
  obtain h | h | h := differ
  · exact h hx
  · exact h hs
  · exact h he

/-- Settles O38. -/
theorem derivationsCompleteInQueueOrder : Obligations.DerivationsCompleteInQueueOrder := by
  intro s
  refine ⟨fun j rest jobs => ?_, fun jobs => ?_, fun x y secret shop shop' epoch epoch' low low' differ =>
    suite_keys_ne Config.suite secret low low' differ, Config.suite.secretsDiffer⟩
  · intro d t shop answer ready abandoned
    show s.to s.dev.completeJob = _
    unfold Device.completeJob Device.abandonKeys Device.deriveKeys
    rw [jobs]
    refine congrArg s.to ?_
    by_cases closing : (d.tunnel t).state = .closing
    · rw [if_pos closing]
      exact congrArg Device.finish (if_pos closing)
    · rw [if_neg closing]
      exact congrArg Device.finish (if_neg closing)
  · show s.to s.dev.completeJob = _
    unfold Device.completeJob
    rw [jobs]
    rfl

/-! ### Outbound frames -/

theorem Device.outboundSent_eq (d : Device) (t : Nat) :
    let keepalive := (d.profileOf t).keepalive
    let restarted : Option Clock := if keepalive = 0 then none else some (d.after (keepalive * 1000000))
    d.outboundSent t = d.modTunnel t fun x =>
      { x with condition := { x.condition with
        keepaliveDeadline := if x.condition.keepaliveDeadline = none then none else restarted } } := by
  intro keepalive restarted
  unfold Device.outboundSent Device.modCondition Tunnel.modCondition
  refine congrArg (d.modTunnel t) (funext fun x => ?_)
  have at_ : (if x.condition.keepaliveDeadline.isSome then d.keepaliveAt t else none)
      = if x.condition.keepaliveDeadline = none then none else restarted := by
    cases x.condition.keepaliveDeadline <;> rfl
  exact congrArg (fun a => { x with condition := { x.condition with keepaliveDeadline := a } }) at_

theorem Device.proofReport_inFlight {d : Device} {r : ProofRecord} {serial : BitVec 32}
    (running : d.proofs.running = some r) (flying : r.phase = .inFlight serial) :
    (∃ sent draws, (r.sent < 4294967295 → sent = r.sent + 1 ∧ draws = d.draws)
        ∧ d.proofReport serial .sent = { d with
          draws := draws
          proofs := { d.proofs with
            running := some { r with sent := sent, phase := .awaitEcho serial (d.after 250000) } } })
      ∧ d.proofReport serial .keyUnusable = d.endProof .aborted (some .keyUnusable)
      ∧ d.proofReport serial .notInService = d.endProof .aborted (some .notInService) := by
  unfold Device.proofReport
  rw [running]
  simp only [flying, if_true, and_self, and_true]
  exact ⟨_, _, fun below => ⟨if_pos below, if_pos below⟩, rfl⟩

theorem Device.proofReport_of_not_inFlight {d : Device} {serial : BitVec 32}
    (h : ∀ r, d.proofs.running = some r → r.phase ≠ .inFlight serial) (outcome : Result) :
    d.proofReport serial outcome = d := by
  unfold Device.proofReport
  split
  · rename_i r running
    exact if_neg (h r running)
  · rfl

/-- Settles O36: by the producer of the frame. -/
theorem outboundFramesCompleteSent : Obligations.OutboundFramesCompleteSent := by
  intro s
  refine ⟨fun w kind inWork flow => ?_, fun none_ => ?_, fun d t serial outcome => ?_⟩
  · intro f t x epoch header wire d generated announced ended
    have completes : s.dev.completeOutbound w kind = ended := by
      unfold Device.completeOutbound Device.announceSent
      simp only [ended, announced]
      cases f.party <;> rfl
    refine ⟨completes, ?_⟩
    show s.to s.dev.outboundEnds = _
    unfold Device.outboundEnds
    rw [inWork]
    simp only [flow]
    rw [completes]
  · show s.to s.dev.outboundEnds = _
    unfold Device.outboundEnds
    split
    · rename_i w inWork
      split
      · rename_i kind flow
        exact absurd flow (none_ w kind inWork)
      · rfl
    · rfl
  · intro keepalive restarted
    refine ⟨d.outboundSent_eq t, fun r running flying => ?_, fun h => Device.proofReport_of_not_inFlight h outcome⟩
    obtain ⟨sent, unusable, refused⟩ := Device.proofReport_inFlight running flying
    exact ⟨fun is => is ▸ sent, fun is => is ▸ unusable, fun is => is ▸ refused⟩

/-! ### What a verified frame tells (R7; log 4) -/

/-- A frame verifies under a key: a holder of the key sealed it, header, ciphertext and tag (R7). -/
theorem Wire.verifies_iff (w : Wire) (key : BitVec 256) :
    w.verifies key = true ↔ ∃ m, Config.suite.made w.tag = some m ∧ m.key = key ∧ m.header = w.header
      ∧ w.text = Config.suite.text m.key m.header m.payload ∧ w.tag = Config.suite.tag m.key m.header w.text := by
  unfold Wire.verifies
  cases Config.suite.made w.tag <;> simp

theorem Wire.payload_of_made {w : Wire} {m : Sealed} (h : Config.suite.made w.tag = some m) :
    w.payload = m.payload := by
  unfold Wire.payload
  rw [h]
  rfl

/-- What a frame that verifies says, and what its like do not. -/
theorem Wire.of_verifies {w : Wire} {key : BitVec 256} (h : w.verifies key = true) :
    w.text = Config.suite.text key w.header w.payload ∧ w.tag = Config.suite.tag key w.header w.text
      ∧ w.payload.length = w.text.length
      ∧ (∀ key', key' ≠ key → w.verifies key' = false)
      ∧ (∀ header text, (header ≠ w.header ∨ text ≠ w.text) →
        ∀ key', (Wire.mk header text w.tag).verifies key' = false)
      ∧ ∀ tag, tag ≠ w.tag → (Wire.mk w.header w.text tag).verifies key = false := by
  obtain ⟨m, made, rfl, header, text, tag⟩ := (w.verifies_iff key).mp h
  rw [Wire.payload_of_made made]
  rw [header] at text tag
  refine ⟨text, tag, ?_, fun key' other => ?_, fun header' text' differ key' => ?_, fun tag' other => ?_⟩
  · rw [text, Config.suite.textLength]
  all_goals rw [← Bool.not_eq_true, Wire.verifies_iff]
  · rintro ⟨m', made', owner, -⟩
    cases made.symm.trans made'
    exact other owner.symm
  · rintro ⟨m', made', -, header'', text'', -⟩
    cases made.symm.trans made'
    obtain d | d := differ
    · exact d (header''.symm.trans header)
    · refine d (text''.trans ?_)
      rw [header, text]
  · rintro ⟨m', -, owner, header'', -, tag''⟩
    refine other (tag''.trans ?_)
    rw [owner, header'', tag]

/-- A wire frame of the part verifies under its own key only, and yields its payload (R7, R8). -/
theorem Wire.of_wireFrame {key key' : BitVec 256} {header payload : List Byte}
    (h : (Wire.mk header (Config.suite.text key header payload)
      (Config.suite.tag key header (Config.suite.text key header payload))).verifies key' = true) :
    key' = key ∧ (Wire.mk header (Config.suite.text key header payload)
      (Config.suite.tag key header (Config.suite.text key header payload))).payload = payload := by
  obtain ⟨m, made, rfl, -⟩ := (Wire.verifies_iff _ _).mp h
  rw [Wire.payload_of_made made]
  rw [Config.suite.tagOwner key header payload m made]
  exact ⟨rfl, rfl⟩

/-! ### Inbound frames -/

/-- The follow test (R80). -/
theorem Device.followTest_eq (d : Device) (t entry : Nat) :
    let x := d.tunnel t
    let follows := (d.profileOf t).followPeer = true
      ∧ (x.state = .provisioned ∨ x.state = .inService ∨ x.state = .isolated)
      ∧ ∃ n, x.next = some n ∧ n.ready = true ∧ n.key.entry = entry ∧ n.key.retirePending = false
    (¬ follows → d.followTest t entry = d)
      ∧ (follows → d.followTest t entry =
        ((d.promote t).1.modTunnel t fun y =>
          { y with current := y.current.map fun c =>
            { c with key := { c.key with followed := .unreported (d.promote t).2.previous } } }).give .follows
              (some t)) := by
  intro x follows
  have promotes : x.state.promotes = true ↔ x.state = .provisioned ∨ x.state = .inService ∨ x.state = .isolated := by
    cases x.state <;> simp [TunnelState.promotes]
  unfold Device.followTest
  simp only
  refine ⟨fun no => ?_, ?_⟩
  · split
    · rename_i n next
      refine if_neg ?_
      rintro ⟨ready, is, usable, peer, state⟩
      exact no ⟨peer, promotes.mp state, n, next, ready, is, Bool.eq_false_iff.mpr usable⟩
    · rfl
  · rintro ⟨peer, state, n, next, ready, is, usable⟩
    simp only [show (d.tunnel t).next = some n from next]
    rw [if_pos ⟨ready, is, Bool.eq_false_iff.mp usable, peer, promotes.mpr state⟩]
    rfl

/-- An outcome counted against a tunnel whose interval timer runs (R121). -/
theorem Device.countOutcome_eq (d : Device) (t : Nat) (k : Counted) :
    let up (n : Nat) : Nat := min (n + 1) 65535
    let more (n : Nat) : Nat := min (n + 1) 4294967295
    d.countOutcome t k = d.modTunnel t fun y =>
      let c := y.condition
      if c.intervalDeadline = none then y
      else { y with condition := match k with
        | .authFail => { c with
          counts := { c.counts with authFail := up c.counts.authFail }
          totals := { c.totals with authFail := more c.totals.authFail } }
        | .replay => { c with
          counts := { c.counts with replay := up c.counts.replay }
          totals := { c.totals with replay := more c.totals.replay } }
        | .epochMiss => { c with
          counts := { c.counts with epochMiss := up c.counts.epochMiss }
          totals := { c.totals with epochMiss := more c.totals.epochMiss } }
        | .malformed => { c with totals := { c.totals with malformed := more c.totals.malformed } }
        | .notInService => { c with totals := { c.totals with notInService := more c.totals.notInService } }
        | .inboundHeld => { c with totals := { c.totals with inboundHeld := more c.totals.inboundHeld } }
        | .keyUnusable => { c with totals := { c.totals with keyUnusable := more c.totals.keyUnusable } } } := by
  intro up more
  unfold Device.countOutcome Device.modCondition Tunnel.modCondition
  refine congrArg (d.modTunnel t) (funext fun y => ?_)
  simp only
  by_cases still : y.condition.intervalDeadline = none
  · rw [if_pos still, if_neg (by rw [still]; exact Bool.false_ne_true)]
  · rw [if_neg still, if_pos (Option.isSome_iff_ne_none.mpr still)]
    cases k <;> rfl

/-- An authenticated frame restarts a silence timer that runs (R124). -/
theorem Device.authenticated_eq (d : Device) (t : Nat) :
    d.authenticated t = d.modTunnel t fun y =>
      { y with condition := { y.condition with
        silenceDeadline := if y.condition.silenceDeadline = none then none
          else some (d.after ((d.profileOf t).silence * 1000000)) } } := by
  unfold Device.authenticated Device.modCondition Tunnel.modCondition
  refine congrArg (d.modTunnel t) (funext fun y => ?_)
  have at_ : (y.condition.silenceDeadline.map fun _ => d.after (seconds (d.profileOf t).silence))
      = if y.condition.silenceDeadline = none then none else some (d.after ((d.profileOf t).silence * 1000000)) := by
    cases y.condition.silenceDeadline <;> rfl
  exact congrArg (fun a => { y with condition := { y.condition with silenceDeadline := a } }) at_

/-- The end of a frame's hold on a record (R56, R69). -/
theorem Device.releaseKey_eq {d : Device} {t entry : Nat} {slot : Slot} {k : KeyRecord}
    (found : (d.tunnel t).slotOf entry = some slot) (is : (d.tunnel t).key? slot = some k) :
    let e := d.modTunnel t fun y => y.modKey slot fun k => { k with bound := false }
    d.releaseKey t entry =
      if k.retirePending then (e.setEntry entry .free).modTunnel t fun y => y.dropKey slot else e := by
  intro e
  have holds : k.entry = entry := by
    have := List.find?_some found
    rw [is] at this
    exact eq_of_beq this
  have after : (e.tunnel t).key? slot = some { k with bound := false } := by
    rw [Device.tunnel_modTunnel, if_pos rfl, Tunnel.key?_modKey, if_pos rfl, is]
    rfl
  unfold Device.releaseKey
  simp only [found]
  show (if ((e.tunnel t).key? slot).any (·.retirePending) then e.dropKey t slot else e) = _
  rw [after]
  refine ite_congr_iff Iff.rfl ?_ rfl
  unfold Device.dropKey
  rw [after]
  simp only [holds]

/-- An echo handed over that is the one awaited, and one that is not (R146). -/
theorem Device.awaited_eq (d : Device) (t index : Nat) (payload : List Byte) :
    (∀ r serial deadline, d.proofs.running = some r → r.phase = .awaitEcho serial deadline → r.tunnel = t →
        4 ≤ payload.length → payload.take 4 = beBytes 4 serial.toNat → index = r.entry →
          d.awaited t index payload = some (r, serial))
      ∧ ((∀ r serial deadline, d.proofs.running = some r → r.phase = .awaitEcho serial deadline → r.tunnel = t →
        4 ≤ payload.length → payload.take 4 = beBytes 4 serial.toNat → index ≠ r.entry) →
          d.awaited t index payload = none) := by
  unfold Device.awaited
  refine ⟨fun r serial deadline running waits on long head is => ?_, fun no => ?_⟩
  · simp only [running, waits]
    exact if_pos ⟨on, long, head, is⟩
  · split
    · rename_i r running
      split
      · rename_i serial deadline waits
        refine if_neg ?_
        rintro ⟨on, long, head, is⟩
        exact no r serial deadline running waits on long head is
      · rfl
      · rfl
    · rfl

theorem Device.endAccepted_keepalive (d : Device) (f : Frame) (h : Header) (payload : List Byte) (is : h.kind = 2) :
    d.endAccepted f h payload = (d.freeCells f.cells).answerInbound f .consumed h.body := by
  unfold Device.endAccepted
  rw [is]
  rfl

theorem Device.endAccepted_echo (d : Device) (f : Frame) (h : Header) (payload : List Byte) (is : h.kind = 4) :
    d.endAccepted f h payload =
      ((d.handEcho f.tunnel h.index payload).freeCells f.cells).answerInbound f .consumed h.body := by
  unfold Device.endAccepted
  rw [is]
  rfl

theorem Device.endAccepted_dialogue (d : Device) (f : Frame) (h : Header) (payload : List Byte) (is : h.kind = 5) :
    d.endAccepted f h payload =
      if f.orphan then d.freeCells f.cells
      else if d.key.notices.length + d.waitingFlags.length < 64 then
        (({ d with store := (d.store.lay f.cells payload).pass (.done .key) f.cells }.pushNotice .key
          ⟨some f.tunnel, d.clock, .dialogueIn .dialogue h.epoch h.sequence h.length f.cells⟩).answerInbound f .diverted
            h.body)
      else ((d.freeCells f.cells).answerInbound f .dialogueDropped h.body).give .dialoguesDropped (some f.tunnel) := by
  have room : d.dialogueRoom = true ↔ d.key.notices.length + d.waitingFlags.length < 64 := decide_eq_true_iff
  unfold Device.endAccepted
  rw [is]
  exact ite_congr_iff Iff.rfl rfl (ite_congr_iff room rfl rfl)

theorem Device.endAccepted_other (d : Device) (f : Frame) (h : Header) (payload : List Byte) (two : h.kind ≠ 2)
    (four : h.kind ≠ 4) (five : h.kind ≠ 5) :
    d.endAccepted f h payload =
      if f.orphan then d.freeCells f.cells
      else { d with store := (d.store.lay f.cells payload).pass (.done .traffic) f.cells }.answerInbound f .accepted
        (.accepted h.kind h.epoch h.sequence h.length f.cells) := by
  unfold Device.endAccepted
  have kinds : FrameKind.ofByte h.kind = some .data ∨ FrameKind.ofByte h.kind = some .proof
      ∨ FrameKind.ofByte h.kind = none := by
    unfold FrameKind.ofByte
    split <;> simp_all
  obtain is | is | is := kinds <;> rw [is]

/-- The end of an authenticated frame, by the number of its kind (R112, R113). -/
theorem Device.endAccepted_eq (d : Device) (f : Frame) (h : Header) (payload : List Byte) :
    let told : Body := .inbound h.kind h.epoch h.sequence
    let answer (d : Device) (o : Result) (body : Body) : Device :=
      if f.orphan then d else d.answerDeferred .traffic f.tag 4 .done o body
    let laid (o : Owner) : Device :=
      { d with store := (d.store.lay f.cells payload).pass (.done o) f.cells }
    d.endAccepted f h payload = match h.kind with
      | 2 => answer (d.freeCells f.cells) .consumed told
      | 4 => answer ((d.handEcho f.tunnel h.index payload).freeCells f.cells) .consumed told
      | 5 =>
        if f.orphan then d.freeCells f.cells
        else if d.key.notices.length + d.waitingFlags.length < 64 then
          answer ((laid .key).pushNotice .key ⟨some f.tunnel, d.clock, .dialogueIn .dialogue h.epoch h.sequence h.length
            f.cells⟩)
            .diverted told
        else (answer (d.freeCells f.cells) .dialogueDropped told).give .dialoguesDropped (some f.tunnel)
      | _ =>
        if f.orphan then d.freeCells f.cells
        else answer (laid .traffic) .accepted (.accepted h.kind h.epoch h.sequence h.length f.cells) := by
  intro told answer laid
  split
  next is => exact d.endAccepted_keepalive f h payload is
  next is => exact d.endAccepted_echo f h payload is
  next is => exact d.endAccepted_dialogue f h payload is
  next two four five => exact d.endAccepted_other f h payload two four five

/-- Settles O37. -/
theorem inboundFramesCompleteAsJudged : Obligations.InboundFramesCompleteAsJudged := by
  intro s
  refine ⟨fun w b inWork flow => ?_, fun none_ => ?_, fun w key h => Wire.of_verifies h,
    fun key key' h payload => ⟨rfl, Wire.of_wireFrame⟩, fun d t => ?_⟩
  · intro f t d h key wire told rejected answer accepted judged ended before
    have judges : s.dev.judgeInbound w = judged := by
      unfold Device.judgeInbound Device.boundKey
      refine ite_congr_iff Iff.rfl rfl ?_
      simp only [accepted, Device.endAccepted_eq]
      rfl
    have completes : s.dev.completeInbound w = ended := by
      unfold Device.completeInbound
      rw [judges]
    refine ⟨completes, ?_⟩
    show s.to s.dev.inboundEnds = _
    unfold Device.inboundEnds Device.finishInbound noticeLast
    rw [inWork]
    simp only [flow]
    rw [completes]
  · show s.to s.dev.inboundEnds = _
    unfold Device.inboundEnds
    split
    · rename_i w inWork
      split
      · rename_i b flow
        exact absurd flow (none_ w b inWork)
      · rfl
    · rfl
  · intro x p
    refine ⟨fun entry => d.followTest_eq t entry, d.countOutcome_eq t, d.authenticated_eq t,
      fun entry slot k found is => Device.releaseKey_eq found is,
      fun r serial deadline index payload running waits on long head is => ?_, fun index payload no => ?_⟩
    · unfold Device.handEcho
      rw [(d.awaited_eq t index payload).1 r serial deadline running waits on long head is]
      rfl
    · unfold Device.handEcho Device.strayEcho
      rw [(d.awaited_eq t index payload).2 no]
      rfl

end Sys2Proof.Machine
end

/-! PROOF. Promotions: what becomes of the three keys of a tunnel, of the entries, and what the bank is given (R72, R73,
R74, R93). -/
section

namespace Sys2Proof.Machine

/-! ### The steps of a promotion -/

/-- What becomes of a CURRENT key for which the PREVIOUS slot is ABSENT: it is demoted with a grace deadline, moved
there retire pending where it is EXPIRED and bound, or retired (R73). -/
def CurrentKey.demoted (c : CurrentKey) (grace : Clock) : Option KeyRecord :=
  if c.state = .expired then
    if c.key.bound then
      some { c.key with graceDeadline := none, softDeadline := none, hardDeadline := none, retirePending := true }
    else none
  else some { c.key with graceDeadline := some grace, softDeadline := none, hardDeadline := none }

/-- The CURRENT keys that a promotion retires, or marks: a displaced one, and one that is EXPIRED (R73, R74). -/
def Tunnel.outgoing (x : Tunnel) : List CurrentKey :=
  if x.previous.isSome then x.current.toList else x.current.toList.filter fun c => decide (c.state = .expired)

/-- Of these, those for which the bank is given an early retirement (R93; log 16). -/
def Tunnel.displacedEarly (x : Tunnel) : List CurrentKey :=
  if x.previous.isSome then x.current.toList.filter fun c => decide (c.state ≠ .expired) else []

/-- The entries that become free as keys are retired: those of the keys that are not bound (R68, R69). -/
def freedBy (ks : List KeyRecord) : List Nat := (ks.filter fun k => !k.bound).map (·.entry)

theorem freedBy_append (a b : List KeyRecord) : freedBy (a ++ b) = freedBy a ++ freedBy b := by
  simp [freedBy]

theorem freedBy_one (k : KeyRecord) : freedBy [k] = if k.bound then [] else [k.entry] := by
  cases h : k.bound <;> simp [freedBy, h]

/-- Step 1 of a promotion (R73). -/
theorem Device.KeyMove.early (d : Device) (t : Nat) :
    let x := d.tunnel t
    Device.KeyMove d (d.earlyRetire t).1 t
        { x with previous :=
          if x.previous.any (·.bound) then x.previous.map fun k => { k with retirePending := true } else none }
        (freedBy x.previous.toList) (x.previous.toList.map fun _ => .earlyRetires)
      ∧ (d.earlyRetire t).2 = x.previous.toList.map (·.epoch) := by
  intro x
  cases previous : x.previous with
  | none =>
    have same : d.earlyRetire t = (d, []) := by
      unfold Device.earlyRetire
      rw [show (d.tunnel t).previous = none from previous]
    rw [same]
    have record : { x with previous := none } = x := by rw [← previous]
    refine ⟨?_, rfl⟩
    show Device.KeyMove d d t { x with previous := none } [] []
    rw [record]
    exact Device.KeyMove.refl d t
  | some k =>
    have move := Device.KeyMove.earlyRetire (d := d) (t := t) previous
    refine ⟨?_, ?_⟩
    · rw [Option.toList_some, freedBy_one]
      exact move
    · unfold Device.earlyRetire
      rw [show (d.tunnel t).previous = some k from previous]
      rfl

/-- Step 2 of a promotion (R73, R74). -/
theorem Device.KeyMove.demotion (d : Device) (t : Nat) :
    let x := d.tunnel t
    let grace := d.after ((d.profileOf t).grace * 1000)
    (∃ current, Device.KeyMove d (d.demotion t).1 t
        { x with
          current := current
          previous := if x.previous.isSome then x.previous else x.current.bind fun c => c.demoted grace }
        (freedBy (x.outgoing.map (·.key))) (x.displacedEarly.map fun _ => .earlyRetires))
      ∧ (d.demotion t).2 = ⟨if x.previous.isSome then none else (x.current.bind fun c => c.demoted grace).map (·.epoch),
        x.outgoing.map fun c => c.key.epoch⟩ := by
  intro x grace
  cases current : x.current with
  | none =>
    rw [Device.demotion_absent current]
    have record : { x with
        current := none, previous := if x.previous.isSome then x.previous else none } = x := by
      obtain ⟨_, _, _, _, _, _, _, _, _, _, _, _, _, _, previous⟩ := x
      cases current
      cases previous <;> rfl
    have nothing : x.outgoing = [] ∧ x.displacedEarly = [] := by
      unfold Tunnel.outgoing Tunnel.displacedEarly
      simp [current]
    rw [nothing.1, nothing.2]
    refine ⟨⟨none, ?_⟩, ?_⟩
    · show Device.KeyMove d d t { x with
        current := none, previous := if x.previous.isSome then x.previous else none } [] []
      rw [record]
      exact Device.KeyMove.refl d t
    · cases x.previous <;> rfl
  | some c =>
    cases previous : x.previous with
    | some q =>
      have out : x.outgoing = [c] := by simp [Tunnel.outgoing, current, previous]
      have early : x.displacedEarly = if c.state = .expired then [] else [c] := by
        by_cases h : c.state = .expired <;> simp [Tunnel.displacedEarly, current, previous, h]
      rw [Device.demotion_held previous current, out, early]
      refine ⟨⟨if c.key.bound then some { c with key := { c.key with retirePending := true } } else none, ?_⟩, rfl⟩
      have move := Device.KeyMove.retireCurrent (d := d) (t := t) current
      simp only [Option.isSome_some, if_true, List.map_cons, List.map_nil, freedBy_one]
      have record : ({ x with
          current := if c.key.bound then some { c with key := { c.key with retirePending := true } } else none
          previous := some q } : Tunnel) = { x with
          current := if c.key.bound then some { c with key := { c.key with retirePending := true } } else none } := by
        rw [← previous]
      rw [record]
      by_cases expired : c.state = .expired
      · rw [if_pos expired, if_pos expired]
        exact move
      · rw [if_neg expired, if_neg expired]
        have given := move.trans (Device.KeyMove.give _ t .earlyRetires)
        rw [move.record, List.append_nil] at given
        exact given
    | none =>
      have out : x.outgoing = if c.state = .expired then [c] else [] := by
        by_cases h : c.state = .expired <;> simp [Tunnel.outgoing, current, previous, h]
      have early : x.displacedEarly = [] := by simp [Tunnel.displacedEarly, previous]
      rw [out, early]
      by_cases expired : c.state = .expired
      · rw [Device.demotion_expired previous current expired, if_pos expired]
        by_cases bound : c.key.bound
        · have demoted : c.demoted grace = some { c.key with
              graceDeadline := none, softDeadline := none, hardDeadline := none, retirePending := true } := by
            simp [CurrentKey.demoted, expired, bound]
          rw [if_pos bound]
          simp only [Option.bind_some, demoted, List.map_cons, List.map_nil, freedBy_one, if_pos bound]
          refine ⟨⟨none, ?_⟩, rfl⟩
          have move := Device.KeyMove.demote d t c.key none true
          simp only [Bool.or_true] at move
          exact move
        · have demoted : c.demoted grace = none := by simp [CurrentKey.demoted, expired, bound]
          rw [if_neg bound]
          simp only [Option.bind_some, demoted, List.map_cons, List.map_nil, freedBy_one]
          refine ⟨⟨none, ?_⟩, rfl⟩
          have move := Device.KeyMove.retireCurrent (d := d) (t := t) current
          rw [if_neg bound] at move
          have record : ({ x with current := none, previous := none } : Tunnel) = { x with current := none } := by
            rw [← previous]
          show Device.KeyMove d _ t { x with current := none, previous := none } _ _
          rw [record]
          exact move
      · have demoted : c.demoted grace = some { c.key with
            graceDeadline := some grace, softDeadline := none, hardDeadline := none } := by
          simp [CurrentKey.demoted, expired]
        rw [Device.demotion_grace previous current expired, if_neg expired]
        simp only [Option.bind_some, demoted, List.map_nil]
        refine ⟨⟨none, ?_⟩, rfl⟩
        have move := Device.KeyMove.demote d t c.key (some grace) false
        simp only [Bool.or_false] at move
        exact move

/-! ### The promotion -/

/-- The PREVIOUS key stands after step 1 where it was bound. -/
theorem isSome_marked (k : Option KeyRecord) :
    (if k.any (·.bound) then k.map fun k => { k with retirePending := true } else none).isSome = k.any (·.bound) := by
  cases k with
  | none => rfl
  | some k => cases h : k.bound <;> simp [h]

/-- A promotion of a NEXT key (R73, R74, R93). -/
theorem Device.KeyMove.promote {d : Device} {t : Nat} {n : NextKey} (next : (d.tunnel t).next = some n) :
    let x := d.tunnel t
    let p := d.profileOf t
    let held := x.previous.any (·.bound)
    let y : Tunnel := { x with
      previous := if held then x.previous.map fun k => { k with retirePending := true } else none }
    let previous := if held then y.previous else x.current.bind fun c => c.demoted (d.after (p.grace * 1000))
    Device.KeyMove d (d.promote t).1 t { x with
        next := none
        current := some ⟨.active, { n.key with
          outCount := 0, ageStart := some d.clock, softDeadline := some (d.after (p.softAge * 1000000))
          hardDeadline := some (d.after (p.hardAge * 1000000)) }⟩
        previous := previous
        outCauses := ⟨x.outCauses.ops, false, false⟩
        state := if x.state = .provisioned then .inService else x.state
        condition := if x.state = .provisioned then { x.condition with
            silenceDeadline := some (d.after (p.silence * 1000000))
            keepaliveDeadline := if p.keepalive = 0 then none else some (d.after (p.keepalive * 1000000)) }
          else x.condition }
        (freedBy (x.previous.toList ++ y.outgoing.map (·.key)))
        ((x.previous.toList.map fun _ => .earlyRetires) ++ (y.displacedEarly.map fun _ => .earlyRetires)
          ++ [.promotions])
      ∧ (d.promote t).2 = ⟨if held then none else previous.map (·.epoch),
        x.previous.toList.map (·.epoch) ++ y.outgoing.map fun c => c.key.epoch⟩ := by
  intro x p held y previous
  obtain ⟨first, early⟩ := Device.KeyMove.early d t
  obtain ⟨⟨current, second⟩, told⟩ := Device.KeyMove.demotion (d.earlyRetire t).1 t
  have third := Device.KeyMove.advanceKey ((d.earlyRetire t).1.demotion t).1 t n.key
  have fourth := Device.KeyMove.give (((d.earlyRetire t).1.demotion t).1.advanceKey t n.key) t .promotions
  have record : (d.earlyRetire t).1.tunnel t = y := first.record
  have stays : y.previous.isSome = held := isSome_marked x.previous
  have clock : ∀ us, (d.earlyRetire t).1.after us = d.after us := fun us =>
    congrArg (fun c : Clock => c + BitVec.ofNat 48 us) first.clock_eq
  rw [record, first.profileOf_eq, clock, stays] at second told
  have both := first.trans second
  have later : ∀ us, ((d.earlyRetire t).1.demotion t).1.after us = d.after us := fun us =>
    congrArg (fun c : Clock => c + BitVec.ofNat 48 us) both.clock_eq
  simp only [both.record, both.profileOf_eq, both.clock_eq, later] at third
  rw [third.record] at fourth
  have all := (both.trans third).trans fourth
  refine ⟨?_, ?_⟩
  · unfold Device.promote
    rw [next]
    rw [freedBy_append]
    simp only [List.append_nil] at all
    exact all
  · unfold Device.promote
    rw [next]
    simp only [told, early]
    have epoch : (if held then none
        else Option.map (·.epoch) (y.current.bind fun c => c.demoted (d.after ((d.profileOf t).grace * 1000))))
        = if held then none else previous.map (·.epoch) := by
      by_cases h : held = true
      · rw [if_pos h, if_pos h]
      · rw [if_neg h, if_neg h]
        have is : previous = _ := if_neg h
        rw [is]
    exact congrArg (fun a => Promotion.mk a _) epoch

/-- The keys that leave their slots, told apart by whether the PREVIOUS slot is held (R73, R74). -/
theorem Tunnel.outgoing_eq (x : Tunnel) :
    x.outgoing = (if x.previous.isSome then x.current.toList else [])
        ++ (if x.previous.isSome then [] else x.current.toList.filter fun c => decide (c.state = .expired))
      ∧ x.displacedEarly =
        (if x.previous.isSome then x.current.toList else []).filter fun c => decide (c.state ≠ .expired) := by
  unfold Tunnel.outgoing Tunnel.displacedEarly
  cases x.previous.isSome <;> simp

theorem Tunnel.holdsEpoch_iff (x : Tunnel) (epoch : Nat) :
    (x.holdsEpoch .current epoch = x.current.any fun c => c.key.epoch == epoch)
      ∧ x.holdsEpoch .previous epoch = x.previous.any fun k => k.epoch == epoch := by
  unfold Tunnel.holdsEpoch Tunnel.key?
  cases x.current <;> exact ⟨rfl, rfl⟩

theorem TunnelState.promotes_iff (x : TunnelState) :
    x.promotes = true ↔ x = .provisioned ∨ x = .inService ∨ x = .isolated := by
  cases x <;> simp [TunnelState.promotes]

/-- Settles O40: the request by its tests, the promotion by its five steps. -/
theorem promotionsAdvanceTheKeys : Obligations.PromotionsAdvanceTheKeys := by
  refine ⟨fun s q posed => ?_, fun d t n next => ?_⟩
  · intro epoch x d
    rw [exec_posed (c := .promote .key) rfl posed]
    unfold Device.promoteRequest
    simp only [Device.conclude_ite, State.to_ite, Device.tunnel_taken, Device.conclude_refuse, Device.conclude_quiet,
      TunnelState.promotes_iff, (Tunnel.holdsEpoch_iff _ _).1]
    rfl
  · intro x p e told held demoted previous displaced outlived retired freed given
    obtain ⟨move, tells⟩ := Device.KeyMove.promote next
    let y : Tunnel := { x with
      previous := if held then x.previous.map fun k => { k with retirePending := true } else none }
    have stays : y.previous.isSome = held := isSome_marked x.previous
    obtain ⟨out, early⟩ := y.outgoing_eq
    rw [stays] at out early
    have previous_is : (if held then y.previous else x.current.bind fun c => c.demoted (d.after (p.grace * 1000)))
        = previous := by
      by_cases h : held = true
      · rw [if_pos h]
        exact (if_pos h).trans (if_pos h).symm
      · rw [if_neg h]
        refine Eq.trans ?_ (if_neg h).symm
        obtain _ | ⟨state, k⟩ := x.current
        · rfl
        · cases state <;> rfl
    have retired_is : x.previous.toList ++ y.outgoing.map (·.key) = retired := by rw [out]
    have given_is : (x.previous.toList.map fun _ => EventSource.earlyRetires)
        ++ (y.displacedEarly.map fun _ => .earlyRetires) ++ [.promotions] = given := by rw [early]
    change Device.KeyMove _ _ _ { x with
      next := none, current := _, previous := ite _ y.previous _, outCauses := _, state := _, condition := _ }
      (freedBy (x.previous.toList ++ y.outgoing.map (·.key)))
      ((x.previous.toList.map fun _ => .earlyRetires) ++ (y.displacedEarly.map fun _ => .earlyRetires)
        ++ [.promotions]) at move
    change _ = Promotion.mk (ite _ none (Option.map _ (ite _ y.previous _)))
      (x.previous.toList.map (·.epoch) ++ y.outgoing.map fun c => c.key.epoch) at tells
    rw [previous_is] at move tells
    rw [retired_is, given_is] at move
    refine ⟨move.record, move.others, move.entries, move.bank, move.rest, congrArg Promotion.previous tells, ?_⟩
    refine (congrArg Promotion.retired tells).trans ?_
    rw [← retired_is, List.map_append, List.map_map]
    rfl

end Sys2Proof.Machine
end

/-! PROOF. Installations, retirements on request, and the deadlines of keys (R57, R58, R59, R66, R85, R86, R89, R90, R91,
R92). -/
section

namespace Sys2Proof.Machine

/-! ### Installations -/

/-- The checks of an installation after that on its cell, in order (R57). -/
theorem Device.installRefusal_eq (d : Device) (t epoch : Nat) :
    let x := d.tunnel t
    d.installRefusal t epoch =
      if x.next ≠ none then some .slotBusy
      else if epoch < 1 ∨ 255 < epoch ∨ x.current.any (fun c => c.key.epoch == epoch)
          ∨ x.previous.any (fun k => k.epoch == epoch) then some .epochConflict
      else if d.keys.lowestFree = none then some .keystoreFull
      else if 8 ≤ d.keys.jobs.length then some .deriveFull
      else none := by
  intro x
  unfold Device.installRefusal
  simp only [(Tunnel.holdsEpoch_iff _ _).1, (Tunnel.holdsEpoch_iff _ _).2]
  refine ite_congr_iff (Option.isSome_iff_ne_none) rfl (ite_congr_iff ?_ rfl rfl)
  rw [← or_assoc (a := epoch < 1)]
  refine or_congr ?_ Iff.rfl
  simp only [within, Bool.and_eq_true, decide_eq_true_eq]
  omega

theorem CellStore.secretCell_iff (c : CellStore) (n : Nat) :
    c.secretCell n = true ↔ c.cell n = ⟨.claimed .key, some .reserved⟩ := decide_eq_true_iff

/-- The entry that an installation takes: the lowest that is free (R51). -/
theorem KeyUnit.lowestFree_spec {u : KeyUnit} {e : Nat} (h : u.lowestFree = some e) :
    e < 1024 ∧ u.entry e = .free ∧ ∀ j, j < e → u.entry j ≠ .free := by
  unfold KeyUnit.lowestFree at h
  rw [List.find?_range_eq_some] at h
  obtain ⟨free, below, least⟩ := h
  exact ⟨List.mem_range.mp below, of_decide_eq_true free, fun j hj => by simpa using least j hj⟩

/-- Settles O39. -/
theorem installationsTakeTheSecret : Obligations.InstallationsTakeTheSecret := by
  refine ⟨fun s q posed => ?_, fun u e h => KeyUnit.lowestFree_spec h⟩
  intro epoch cell t x d live refuse e secret
  have alive : live ↔ x.state.live = true := x.state.live_iff.symm
  rw [exec_posed (c := .installKey .key) rfl posed]
  unfold Device.installKey
  simp only [Device.conclude_ite, State.to_ite]
  refine ite_congr_iff Iff.rfl rfl (ite_congr_iff ?_ ?_ (ite_congr_iff ?_ rfl ?_))
  · exact not_congr (CellStore.secretCell_iff _ _)
  · rw [Device.tunnel_taken]
    exact congrArg (fun st => s.to (d.respond .key q (.refusal st))) (ite_congr_iff alive.symm rfl rfl)
  · rw [Device.tunnel_freeCells, Device.tunnel_taken]
    exact not_congr alive.symm
  · rw [Device.installRefusal_eq]
    have keys : e.keys = s.dev.keys := Device.keys_taken ..
    simp only [Device.tunnel_freeCells, Device.tunnel_taken, show ((s.dev.taken .key 7).freeCells [q.num 1 2]).keys
      = s.dev.keys from keys]
    by_cases busy : x.next ≠ none
    · rw [if_pos busy, if_pos busy]
      rfl
    rw [if_neg busy, if_neg busy]
    by_cases conflict : epoch < 1 ∨ 255 < epoch ∨ x.current.any (fun c => c.key.epoch == epoch)
          ∨ x.previous.any (fun k => k.epoch == epoch)
    · rw [if_pos conflict, if_pos conflict]
      rfl
    rw [if_neg conflict, if_neg conflict]
    cases free : s.dev.keys.lowestFree with
    | none => rfl
    | some entry =>
      rw [if_neg (Option.some_ne_none entry)]
      by_cases full : 8 ≤ s.dev.keys.jobs.length
      · simp only [if_pos full]
        rfl
      · simp only [if_neg full, Device.conclude_wait]
        refine congrArg (fun e : Device => s.to e.finish) ?_
        unfold Device.acceptInstall Device.lowMarkTest
        rw [keys]
        rfl

/-! ### Retirements on request -/

theorem TunnelState.not_live_iff (x : TunnelState) : ¬ x.live = true ↔ x = .empty ∨ x = .closing := by
  cases x <;> simp [TunnelState.live]

/-- A key that a cause of retirement reaches (R68, R69). -/
theorem Device.retireKey_eq {d : Device} {t : Nat} {slot : Slot} {k : KeyRecord}
    (is : (d.tunnel t).key? slot = some k) :
    d.retireKey t slot =
      if k.bound then d.modTunnel t (·.modKey slot fun k => { k with retirePending := true })
      else (d.setEntry k.entry .free).modTunnel t (·.dropKey slot) := by
  unfold Device.retireKey Device.dropKey
  rw [is]

/-- Settles O41. -/
theorem keysAreRetiredOnRequest : Obligations.KeysAreRetiredOnRequest := by
  refine ⟨fun s q posed => ?_, fun s q posed => ?_⟩ <;> intro t x d
  · rw [exec_posed (c := .discardNext .key) rfl posed]
    unfold Device.discardNext
    simp only [Device.conclude_ite, State.to_ite, Device.tunnel_taken]
    refine ite_congr_iff x.state.not_live_iff rfl ?_
    cases next : x.next with
    | none => rfl
    | some n =>
      simp only
      by_cases ready : n.ready = true
      · have is : (d.tunnel t).key? .next = some n.key := by
          show (d.tunnel t).next.map (·.key) = _
          rw [show d.tunnel t = x from Device.tunnel_taken .., next]
          rfl
        rw [if_pos ready, if_neg (by rw [ready]; exact Bool.noConfusion), Device.conclude_answer,
          Device.retireKey_eq is]
        rfl
      · rw [if_neg ready, if_pos (Bool.eq_false_iff.mpr ready)]
        rfl
  · rw [exec_posed (c := .retirePrevious .key) rfl posed]
    unfold Device.retirePrevious
    simp only [Device.conclude_ite, State.to_ite, Device.tunnel_taken]
    refine ite_congr_iff x.state.not_live_iff rfl ?_
    cases previous : x.previous with
    | none => rfl
    | some k =>
      have is : (d.tunnel t).key? .previous = some k := by
        show (d.tunnel t).previous = _
        rw [show d.tunnel t = x from Device.tunnel_taken .., previous]
      simp only
      by_cases pending : k.retirePending = true
      · rw [if_pos pending, if_pos pending]
        rfl
      rw [if_neg pending, if_neg pending, Device.conclude_answer, Device.retireKey_eq is]
      by_cases bound : k.bound = true
      · rw [if_pos bound, if_pos bound, if_pos bound]
        rfl
      · rw [if_neg bound, if_neg bound, if_neg bound]
        rfl

/-! ### The deadlines of keys -/

theorem Device.due_iff (d : Device) (at_ : Option Clock) : d.due at_ = true ↔ at_ = some d.clock := beq_iff_eq

theorem Flag.raise_eq {ρ : Type} [DecidableEq ρ] (w : ρ) (f : Flag ρ) :
    f.raise w = if f = .no then .unreported w else f := by
  cases f <;> rfl

/-- The flags of a key that wait, in scan order (R92). -/
def KeyRecord.unreported (k : KeyRecord) : List KeyFlag :=
  (match k.expired with
    | .unreported _ => [.expired]
    | _ => []) ++ (match k.renewal with
    | .unreported _ => [.renewal]
    | _ => []) ++ (match k.followed with
    | .unreported _ => [.followed]
    | _ => [])

theorem KeyRecord.filter_waits (k : KeyRecord) :
    [KeyFlag.expired, .renewal, .followed].filter k.waits = k.unreported := by
  unfold KeyRecord.unreported
  cases expired : k.expired <;> cases renewal : k.renewal <;> cases followed : k.followed <;>
    simp [KeyRecord.waits, Flag.waits, expired, renewal, followed]

theorem Device.flagsOf_eq (d : Device) (u : Nat) :
    d.flagsOf u = [Slot.current, .previous].flatMap fun r =>
      (((d.tunnel u).key? r).toList.flatMap KeyRecord.unreported).map fun f => (u, r, f) := by
  unfold Device.flagsOf
  refine congrArg (fun g => [Slot.current, .previous].flatMap g) (funext fun r => ?_)
  cases (d.tunnel u).key? r with
  | none => rfl
  | some k => simp [KeyRecord.filter_waits]

theorem Device.offerFlag_full {d : Device} (full : 64 ≤ d.key.notices.length) (x : Nat × Slot × KeyFlag) :
    d.offerFlag x = d := by
  have room : ¬ d.keyRoom = true := fun h => absurd (of_decide_eq_true h) (Nat.not_lt.mpr full)
  unfold Device.offerFlag
  split
  · split
    · exact if_neg room
    · rfl
  · rfl

/-- The offer of a flag while a place is free: it is told with the key's values as they stand (R91). -/
theorem Device.offerFlag_room {d : Device} {t : Nat} {slot : Slot} {k : KeyRecord}
    (room : d.key.notices.length < 64) (is : (d.tunnel t).key? slot = some k) (flag : KeyFlag) :
    d.offerFlag (t, slot, flag) = match d.keyNotice slot k flag with
      | some body => (d.modTunnel t (·.modKey slot (·.told flag))).pushNotice .key ⟨some t, d.clock, body⟩
      | none => d := by
  have free : d.keyRoom = true := decide_eq_true room
  unfold Device.offerFlag
  simp only [is, free, if_true] <;> rfl

/-- A change of a key depends on what it makes of the key that is there. -/
theorem Tunnel.modKey_congr {x : Tunnel} {slot : Slot} {k : KeyRecord} {f g : KeyRecord → KeyRecord}
    (is : x.key? slot = some k) (same : f k = g k) : x.modKey slot f = x.modKey slot g := by
  unfold Tunnel.modKey
  cases slot with
  | next =>
    obtain ⟨n, next, rfl⟩ := Option.map_eq_some_iff.mp is
    simp [next, same]
  | current =>
    obtain ⟨c, current, rfl⟩ := Option.map_eq_some_iff.mp is
    simp [current, same]
  | previous =>
    have previous : x.previous = some k := is
    simp [previous, same]

theorem Device.modTunnel_modKey_congr {d : Device} {t : Nat} {slot : Slot} {k : KeyRecord}
    {f g : KeyRecord → KeyRecord} (is : (d.tunnel t).key? slot = some k) (same : f k = g k) :
    (d.modTunnel t fun x => x.modKey slot f) = d.modTunnel t fun x => x.modKey slot g :=
  congrArg (d.setTunnel t) (Tunnel.modKey_congr is same)

/-- Settles O42. -/
theorem keyDeadlinesExpire : Obligations.KeyDeadlinesExpire := by
  intro s t x
  refine ⟨fun k previous due => ?_, fun no => ?_, fun c current due => ?_, fun no => ?_, fun c current due => ?_,
    fun no => ?_, fun d slot k flag => ?_⟩
  · intro d
    show s.to (s.dev.graceEnds t) = _
    have is : (d.tunnel t).key? .previous = some { k with graceDeadline := none } := by
      show (d.tunnel t).previous = _
      rw [Device.tunnel_modTunnel, if_pos rfl]
      show x.previous.map _ = _
      rw [previous]
      rfl
    have at_ : s.dev.due ((s.dev.tunnel t).previous.bind (·.graceDeadline)) = true := by
      rw [s.dev.due_iff, show (s.dev.tunnel t).previous = some k from previous]
      exact due
    have ends : s.dev.graceEnds t = (d.retireKey t .previous).finish := if_pos at_
    rw [ends, Device.retireKey_eq is, apply_ite Device.finish, State.to_ite]
    rfl
  · show s.to (s.dev.graceEnds t) = _
    unfold Device.graceEnds
    rw [if_neg fun due => ?_]
    · rfl
    · obtain ⟨k, previous, at_⟩ := Option.bind_eq_some_iff.mp ((s.dev.due_iff _).mp due)
      exact no k previous at_
  · show s.to (s.dev.softAgeEnds t) = _
    unfold Device.softAgeEnds Device.softAge
    rw [if_pos ((s.dev.due_iff _).mpr (by rw [show (s.dev.tunnel t).current = some c from current]; exact due))]
    simp only [Tunnel.modKey, Flag.raise_eq]
  · show s.to (s.dev.softAgeEnds t) = _
    unfold Device.softAgeEnds
    rw [if_neg fun due => ?_]
    · rfl
    · obtain ⟨c, current, at_⟩ := Option.bind_eq_some_iff.mp ((s.dev.due_iff _).mp due)
      exact no c current at_
  · intro k
    show s.to (s.dev.hardAgeEnds t) = _
    have is : (s.dev.tunnel t).current = some c := current
    unfold Device.hardAgeEnds Device.hardAge
    rw [if_pos ((s.dev.due_iff _).mpr (by rw [is]; exact due)), is]
    simp only [k, Flag.raise_eq]
  · show s.to (s.dev.hardAgeEnds t) = _
    unfold Device.hardAgeEnds
    rw [if_neg fun due => ?_]
    · rfl
    · obtain ⟨c, current, at_⟩ := Option.bind_eq_some_iff.mp ((s.dev.due_iff _).mp due)
      exact no c current at_
  · intro unreported
    refine ⟨rfl, rfl, fun _ => rfl, ?_, fun full => Device.offerFlag_full full _, fun room is => ?_⟩
    · exact congrArg (fun g => (List.range 480).flatMap g) (funext d.flagsOf_eq)
    · intro told
      have tells : ∀ {f body}, k.told flag = f k →
          (d.modTunnel t (·.modKey slot (·.told flag))).pushNotice .key ⟨some t, d.clock, body⟩ = told f body := by
        intro f body same
        exact congrArg (fun e : Device => e.pushNotice .key ⟨some t, d.clock, body⟩)
          (Device.modTunnel_modKey_congr is same)
      rw [Device.offerFlag_room room is]
      unfold Device.keyNotice
      cases flag with
      | expired =>
        cases flag : k.expired
        case unreported w => exact tells (by rw [KeyRecord.told, flag]; rfl)
        all_goals rfl
      | renewal =>
        cases flag : k.renewal
        case unreported w => exact tells (by rw [KeyRecord.told, flag]; rfl)
        all_goals rfl
      | followed =>
        cases flag : k.followed
        case unreported w => exact tells (by rw [KeyRecord.told, flag]; rfl)
        all_goals rfl

end Sys2Proof.Machine
end

/-! PROOF. Tunnels opened and closed, and their holds (R36, R39, R41, R45, R117). -/
section

namespace Sys2Proof.Machine

/-! ### OPEN_TUNNEL -/

theorem Device.shopInUse_iff (d : Device) (t : Nat) (shop : BitVec 24) :
    d.shopInUse t shop = true ↔
      ∃ u ∈ List.range 480, u ≠ t ∧ (d.tunnel u).state ≠ .empty ∧ (d.tunnel u).shop = some shop := by
  unfold Device.shopInUse
  rw [List.any_eq_true]
  exact exists_congr fun u => and_congr_right fun _ => decide_eq_true_iff

theorem Notice.isFaultOf_eq (t : Nat) : Notice.isFaultOf t = fun n => match n.body with
    | .tunnelFault .. => decide (n.tunnel = some t)
    | _ => false := by
  funext n
  unfold Notice.isFaultOf
  cases n.body <;> rfl

/-- Settles O43. -/
theorem openedTunnelsAreProvisioned : Obligations.OpenedTunnelsAreProvisioned := by
  intro s q posed t shop profile d interval condition opened mine freed told
  rw [exec_posed (c := .openTunnel .operations) rfl posed]
  unfold Device.openTunnel
  simp only [Device.conclude_ite, State.to_ite, Device.tunnel_taken]
  refine ite_congr_iff Iff.rfl rfl (ite_congr_iff Iff.rfl rfl (ite_congr_iff ?_ rfl ?_))
  · refine (Device.shopInUse_iff _ _ _).trans ?_
    simp only [Device.tunnel_taken]
    rfl
  · rw [Device.conclude_answer]
    refine congrArg (fun e : Device => s.to (e.respond .operations q ⟨.done, .none, .empty⟩).finish) ?_
    have is_mine : Notice.isFaultOf t = mine := Notice.isFaultOf_eq t
    unfold Device.removeNotices
    simp only [show Notice.isFaultOf q.tunnel = mine from is_mine]
    rfl

/-! ### SET_HOLDS -/

theorem holdOf_eq (n : Nat) :
    (2 < n → holdOf n = none) ∧ (n ≤ 2 → ∃ h, holdOf n = some h ∧
      ∀ b, h.apply b = if n = 0 then b else if n = 1 then true else false) := by
  match n with
  | 0 => exact ⟨fun h => absurd h (by decide), fun _ => ⟨_, rfl, fun _ => rfl⟩⟩
  | 1 => exact ⟨fun h => absurd h (by decide), fun _ => ⟨_, rfl, fun _ => rfl⟩⟩
  | 2 => exact ⟨fun h => absurd h (by decide), fun _ => ⟨_, rfl, fun _ => rfl⟩⟩
  | _ + 3 => exact ⟨fun _ => rfl, fun h => absurd h (by omega)⟩

/-- A proof of these purposes on the tunnel ends ABORTED; without one nothing changes (R151). -/
theorem Device.abortProof_eq (d : Device) (t : Nat) (why : AbortCause) (purposes : Purpose → Bool) :
    ((∃ r, d.proofs.running = some r ∧ r.tunnel = t ∧ purposes r.purpose = true) →
        d.abortProof t why purposes = d.endProof .aborted (some why))
      ∧ ((¬ ∃ r, d.proofs.running = some r ∧ r.tunnel = t ∧ purposes r.purpose = true) →
        d.abortProof t why purposes = d) := by
  unfold Device.abortProof
  refine ⟨?_, fun no => ?_⟩
  · rintro ⟨r, running, on, is⟩
    rw [running]
    exact if_pos ⟨on, is⟩
  · split
    · rename_i r running
      exact if_neg fun h => no ⟨r, running, h.1, h.2⟩
    · rfl

theorem onlyOperations_iff (p : Purpose) : onlyOperations p = true ↔ p = .operations := by
  cases p <;> simp [onlyOperations]

/-- Settles O45. -/
theorem holdsAreSetAndCleared : Obligations.HoldsAreSetAndCleared := by
  intro s q posed t x d after out inn e ends
  rw [exec_posed (c := .setHolds .operations) rfl posed]
  unfold Device.setHolds
  simp only [Device.tunnel_taken]
  refine ⟨fun bad => ?_, fun low low' no no' => ?_, fun low low' serves => ?_⟩
  · obtain bad | bad := bad
    · rw [(holdOf_eq _).1 bad]
      rfl
    · rw [(holdOf_eq _).1 bad]
      cases holdOf (q.num 0 1) <;> rfl
  · obtain ⟨h, is, -⟩ := (holdOf_eq _).2 low
    obtain ⟨h', is', -⟩ := (holdOf_eq _).2 low'
    rw [is, is']
    simp only
    rw [if_pos fun serves => serves.elim no no']
    rfl
  · obtain ⟨h, is, applies⟩ := (holdOf_eq _).2 low
    obtain ⟨h', is', applies'⟩ := (holdOf_eq _).2 low'
    rw [is, is']
    simp only [applies, applies']
    rw [if_neg (Classical.not_not.mpr serves), Device.conclude_answer]
    have same_proofs : e.proofs = s.dev.proofs := Device.proofs_taken ..
    obtain ⟨aborts, stands⟩ := e.abortProof_eq t .outboundCause onlyOperations
    have running_iff : (∃ r, e.proofs.running = some r ∧ r.tunnel = t ∧ onlyOperations r.purpose = true) ↔
        ∃ r, s.dev.proofs.running = some r ∧ r.tunnel = t ∧ r.purpose = .operations := by
      simp only [same_proofs, onlyOperations_iff]
    refine ⟨fun none_ => ?_, fun ending => ?_⟩ <;>
      refine congrArg (fun e : Device => s.to (e.respond .operations q ⟨.done, .none, .holds out inn⟩).finish) ?_
    · by_cases fresh : out.ops = true ∧ ¬ x.outCauses.ops = true
      · refine (if_pos fresh).trans (stands fun h => none_ ⟨fresh.1, Bool.eq_false_iff.mpr fresh.2, running_iff.mp h⟩)
      · exact if_neg fresh
    · obtain ⟨set_, clear, running⟩ := ending
      exact (if_pos ⟨set_, Bool.eq_false_iff.mp clear⟩).trans (aborts (running_iff.mpr running))

/-! ### Frames that a close removes -/

/-- A tunnel's record but for its frame count and its condition. -/
def Tunnel.withoutCounts (x : Tunnel) : Tunnel := { x with frameCount := 0, condition := Condition.initial }

/-- One part is another but for cells, responses, notices and the counts of tunnels: what the frames that a close
removes can change (R117). -/
structure Device.Cleared (a b : Device) : Prop where
  tunnels : ∀ u, (b.tunnel u).withoutCounts = (a.tunnel u).withoutCounts := by exact fun _ => rfl
  keys : b.keys = a.keys := by rfl
  engine : b.engine = a.engine := by rfl
  proofs : b.proofs = a.proofs := by rfl
  operations : b.operations = a.operations := by rfl

namespace Device.Cleared

theorem refl (d : Device) : Cleared d d := {}

theorem trans {a b c : Device} (h : Cleared a b) (k : Cleared b c) : Cleared a c where
  tunnels u := (k.tunnels u).trans (h.tunnels u)
  keys := k.keys.trans h.keys
  engine := k.engine.trans h.engine
  proofs := k.proofs.trans h.proofs
  operations := k.operations.trans h.operations

theorem modTunnel (d : Device) (t : Nat) (f : Tunnel → Tunnel) (h : ∀ x, (f x).withoutCounts = x.withoutCounts) :
    Cleared d (d.modTunnel t f) where
  tunnels u := by
    rw [Device.tunnel_modTunnel]
    split
    · rename_i e
      rw [e]
      exact h _
    · rfl

theorem answerDeferred (d : Device) {p : Port} (other : p ≠ .operations) (tag : BitVec 16) (code : Nat) (st : Status)
    (o : Result) (b : Body) : Cleared d (d.answerDeferred p tag code st o b) := by
  cases p with
  | operations => exact absurd rfl other
  | _ => exact {}

theorem failOutbound (d : Device) (f : Frame) : Cleared d (d.failOutbound f .tunnelClosed) := by
  have counted : Cleared d ((d.uncount f.tunnel).placeFreed f) :=
    (modTunnel d f.tunnel (fun x => { x with frameCount := x.frameCount - 1 }) fun _ => rfl).trans
      (b := d.uncount f.tunnel) {}
  have freed : Cleared d (((d.uncount f.tunnel).placeFreed f).freeCells f.cells) := counted.trans {}
  have done : ∀ o, Cleared d (((d.uncount f.tunnel).placeFreed f).passCells f.cells (.done o)) := fun _ =>
    counted.trans {}
  have report : ∀ (e : Device) serial, e.proofReport serial .tunnelClosed = e := by
    intro e serial
    unfold Device.proofReport
    split
    · exact ite_self _
    · rfl
  unfold Device.failOutbound
  simp only
  split
  · split
    · exact freed
    · exact (done _).trans (answerDeferred _ (by decide) _ _ _ _ _)
  · split
    · exact freed
    · exact (done _).trans (answerDeferred _ (by decide) _ _ _ _ _)
  · exact freed.trans (modTunnel _ f.tunnel (·.modCondition fun c => { c with outstanding := false }) fun _ => rfl)
  · split
    · rw [report]
      exact freed
    · exact freed

theorem failInbound (d : Device) (f : Frame) (b : Body) : Cleared d (d.failInbound f .tunnelClosed b) := by
  have freed : Cleared d ((d.uncount f.tunnel).freeCells f.cells) :=
    (modTunnel d f.tunnel (fun x => { x with frameCount := x.frameCount - 1 }) fun _ => rfl).trans
      (b := d.uncount f.tunnel) {}
  show Cleared d (((d.uncount f.tunnel).freeCells f.cells).answerInbound f .tunnelClosed b)
  unfold Device.answerInbound
  split
  · exact freed
  · exact freed.trans (answerDeferred _ (by decide) _ _ _ _ _)

theorem closeFrame (d : Device) (f : Frame) : Cleared d (d.closeFrame f) := by
  unfold Device.closeFrame
  split
  · exact failOutbound d f
  · exact failInbound d f _

theorem closeFrames (fs : List Frame) : ∀ d : Device, Cleared d (fs.foldl Device.closeFrame d) := by
  induction fs with
  | nil => exact refl
  | cons f fs ih => exact fun d => (closeFrame d f).trans (ih _)

end Device.Cleared

/-- The engine as a close leaves it: the frames of the tunnel removed from the three queues, with the exit test and the
empty-BULK test on what is left (R104, R105, R117). -/
theorem Device.removeFrames_eq (d : Device) (t : Nat) :
    let e := d.engine
    let mine (f : Frame) : Bool := decide (f.tunnel = t)
    let left (fs : List Frame) : List Frame := fs.filter fun f => !mine f
    let exited : Mode :=
      if e.settle.any mine = true ∧ (left e.settle).length ≤ e.marks.low then match e.mode with
        | .base .settleFirst => .base .normal
        | .rescue .settleFirst n => .rescue .normal n
        | m => m
      else e.mode
    let mode : Mode :=
      if e.bulk.any mine = true ∧ left e.bulk = [] then match exited with
        | .rescue back _ => .base back
        | m => m
      else exited
    d.removeFrames t = (e.control.filter mine ++ e.settle.filter mine ++ e.bulk.filter mine).foldl Device.closeFrame
      { d with
        engine := { e with control := left e.control, settle := left e.settle, bulk := left e.bulk, mode := mode }
        buildDue := d.buildDue || e.control.any mine } := by
  intro e mine left exited mode
  have exit (c : Prop) [Decidable c] (x : Engine) : (if c then x.exitTest else x) =
      { x with mode := if c ∧ x.settle.length ≤ x.marks.low then match x.mode with
        | .base .settleFirst => .base .normal
        | .rescue .settleFirst n => .rescue .normal n
        | m => m
        else x.mode } := by
    unfold Engine.exitTest
    by_cases removed : c
    · simp only [removed, if_true, true_and]
      split
      · obtain ⟨_, _, _, _, m | ⟨m, n⟩, _, _⟩ := x <;> cases m <;> rfl
      · rfl
    · rw [if_neg removed, if_neg fun h => removed h.1]
  have empty (c : Prop) [Decidable c] (x : Engine) : (if c then x.emptyTest else x) =
      { x with mode := if c ∧ x.bulk = [] then match x.mode with
        | .rescue back _ => .base back
        | m => m
        else x.mode } := by
    unfold Engine.emptyTest
    by_cases removed : c
    · simp only [removed, if_true, true_and]
      obtain ⟨_, _, bulk, _, m | ⟨m, n⟩, _, _⟩ := x <;> cases bulk <;> rfl
    · rw [if_neg removed, if_neg fun h => removed h.1]
  unfold Device.removeFrames
  simp only [exit, empty]
  rfl

/-! ### The end of a closing -/

/-- What the removal of a tunnel's frames leaves (R117). -/
theorem Device.removeFrames_spec (d : Device) (t : Nat) :
    (∀ k, (d.removeFrames t).engine.queue k = (d.engine.queue k).filter fun f => !decide (f.tunnel = t))
      ∧ (d.removeFrames t).engine.inWork = d.engine.inWork
      ∧ (∀ u, ((d.removeFrames t).tunnel u).withoutCounts = (d.tunnel u).withoutCounts)
      ∧ (d.removeFrames t).keys = d.keys ∧ (d.removeFrames t).operations = d.operations
      ∧ (d.removeFrames t).proofs = d.proofs := by
  rw [Device.removeFrames_eq]
  have cleared := Device.Cleared.closeFrames
  refine ⟨fun k => ?_, ?_, fun u => ((cleared _ _).tunnels u).trans ?_, (cleared _ _).keys, (cleared _ _).operations,
    (cleared _ _).proofs⟩
  · rw [(cleared _ _).engine]
    cases k <;> rfl
  · rw [(cleared _ _).engine]
  · rfl

/-- A key that goes leaves the others of its tunnel, and everything but the tunnels and the entries. -/
theorem Device.dropKey_only (d : Device) (t : Nat) (slot : Slot) :
    { d.dropKey t slot with tunnels := d.tunnels, keys := { (d.dropKey t slot).keys with entries := d.keys.entries } } = d
      ∧ (∀ u, u ≠ t → (d.dropKey t slot).tunnel u = d.tunnel u)
      ∧ (d.dropKey t slot).tunnel t = (d.tunnel t).dropKey slot
      ∧ ∀ entry, (d.dropKey t slot).keys.entry entry =
        if ((d.tunnel t).key? slot).any (fun k => k.entry == entry) then .free else d.keys.entry entry := by
  unfold Device.dropKey
  cases is : (d.tunnel t).key? slot with
  | none =>
    refine ⟨rfl, fun _ _ => rfl, ?_, fun entry => rfl⟩
    cases slot with
    | next =>
      have none_ : (d.tunnel t).next = none := Option.map_eq_none_iff.mp is
      show d.tunnel t = { d.tunnel t with next := none }
      rw [← none_]
    | current =>
      have none_ : (d.tunnel t).current = none := Option.map_eq_none_iff.mp is
      show d.tunnel t = { d.tunnel t with current := none }
      rw [← none_]
    | previous =>
      have none_ : (d.tunnel t).previous = none := is
      show d.tunnel t = { d.tunnel t with previous := none }
      rw [← none_]
  | some k =>
    refine ⟨rfl, fun u other => ?_, ?_, fun entry => ?_⟩
    · rw [Device.tunnel_modTunnel, if_neg other]
      rfl
    · rw [Device.tunnel_modTunnel, if_pos rfl]
      rfl
    · refine (d.entry_setEntry k.entry entry .free).trans (ite_congr_iff ?_ rfl rfl)
      rw [Option.any_some, beq_iff_eq]
      exact eq_comm

/-- The three keys of a tunnel gone. -/
def Device.dropKeys (d : Device) (t : Nat) : Device := ((d.dropKey t .next).dropKey t .current).dropKey t .previous

theorem Device.dropKeys_spec (d : Device) (t : Nat) :
    { d.dropKeys t with tunnels := d.tunnels, keys := { (d.dropKeys t).keys with entries := d.keys.entries } } = d
      ∧ (∀ u, u ≠ t → (d.dropKeys t).tunnel u = d.tunnel u)
      ∧ (d.dropKeys t).tunnel t = { d.tunnel t with next := none, current := none, previous := none }
      ∧ (∀ slot k, (d.tunnel t).key? slot = some k → (d.dropKeys t).keys.entry k.entry = .free)
      ∧ ∀ entry, (∀ slot k, (d.tunnel t).key? slot = some k → k.entry ≠ entry) →
        (d.dropKeys t).keys.entry entry = d.keys.entry entry := by
  obtain ⟨rest₁, others₁, record₁, entries₁⟩ := d.dropKey_only t .next
  obtain ⟨rest₂, others₂, record₂, entries₂⟩ := (d.dropKey t .next).dropKey_only t .current
  obtain ⟨rest₃, others₃, record₃, entries₃⟩ := ((d.dropKey t .next).dropKey t .current).dropKey_only t .previous
  have current : ((d.dropKey t .next).tunnel t).key? .current = (d.tunnel t).key? .current := by rw [record₁]; rfl
  have previous : (((d.dropKey t .next).dropKey t .current).tunnel t).key? .previous = (d.tunnel t).key? .previous := by
    rw [record₂, record₁]; rfl
  have entries : ∀ entry, (d.dropKeys t).keys.entry entry =
      if ((d.tunnel t).key? .previous).any (fun k => k.entry == entry) then .free
      else if ((d.tunnel t).key? .current).any (fun k => k.entry == entry) then .free
      else if ((d.tunnel t).key? .next).any (fun k => k.entry == entry) then .free
      else d.keys.entry entry := fun entry => by
    rw [← current, ← previous, ← entries₁, ← entries₂, ← entries₃]
    rfl
  refine ⟨?_, fun u other => ?_, ?_, fun slot k is => ?_, fun entry none_ => ?_⟩
  · exact (congrArg (fun z : Device =>
      { z with tunnels := d.tunnels, keys := { z.keys with entries := d.keys.entries } }) rest₃).trans
        ((congrArg (fun z : Device =>
          { z with tunnels := d.tunnels, keys := { z.keys with entries := d.keys.entries } }) rest₂).trans rest₁)
  · exact (others₃ u other).trans ((others₂ u other).trans (others₁ u other))
  · exact record₃.trans (by rw [record₂, record₁]; rfl)
  · have here : ((d.tunnel t).key? slot).any (fun x => x.entry == k.entry) = true := by rw [is]; exact beq_self_eq_true _
    rw [entries]
    cases slot <;> simp only [here, if_true, ite_self]
  · have absent : ∀ slot, ¬ ((d.tunnel t).key? slot).any (fun k => k.entry == entry) = true := fun slot h => by
      cases is : (d.tunnel t).key? slot with
      | none => rw [is] at h; cases h
      | some k => rw [is] at h; exact none_ slot k is (eq_of_beq h)
    rw [entries, if_neg (absent _), if_neg (absent _), if_neg (absent _)]

theorem Device.endClosing_waits {d : Device} {t : Nat}
    (waits : (d.tunnel t).inDerivation = true ∨ ∃ w, d.engine.inWork = some w ∧ w.frame.tunnel = t) :
    d.endClosing t = d := by
  unfold Device.endClosing
  refine if_neg ?_
  rintro ⟨-, idle, free⟩
  obtain h | ⟨w, is, on⟩ := waits
  · exact idle h
  · refine free ?_
    unfold Device.inWorkOf
    rw [is]
    exact decide_eq_true on

theorem Tunnel.key?_withoutCounts (x : Tunnel) (slot : Slot) : x.withoutCounts.key? slot = x.key? slot := by
  cases slot <;> rfl

/-- The response that ends a closing, where it is owed. -/
def Device.answerClosed (d : Device) : Option (BitVec 16) → Device
  | some tag => d.answerDeferred .operations tag 13 .done .none .empty
  | none => d

/-- It changes the operations port only. -/
theorem Device.answerClosed_spec (d : Device) (owed : Option (BitVec 16)) :
    (∀ u, (d.answerClosed owed).tunnel u = d.tunnel u) ∧ (d.answerClosed owed).keys = d.keys
      ∧ (d.answerClosed owed).engine = d.engine
      ∧ (d.answerClosed owed).operations.responses = d.operations.responses ++
        (match owed with
          | some tag => [⟨⟨tag, 13, .done, .none, .empty⟩, 0, 1⟩]
          | none => [])
      ∧ { d.answerClosed owed with operations := d.operations } = d := by
  cases owed with
  | none => exact ⟨fun _ => rfl, rfl, rfl, (List.append_nil _).symm, rfl⟩
  | some tag => exact ⟨fun _ => rfl, rfl, rfl, rfl, rfl⟩

/-- The end of a closing that nothing holds (R41). -/
theorem Device.endClosing_ends {d : Device} {t : Nat} (closing : (d.tunnel t).state = .closing)
    (free : ¬ ((d.tunnel t).inDerivation = true ∨ ∃ w, d.engine.inWork = some w ∧ w.frame.tunnel = t)) :
    let e := ((d.removeFrames t).dropKeys t).modTunnel t fun x =>
      { x with
        state := .empty, shop := none, profile := none, outCauses := ⟨false, false, false⟩, inOps := false
        retryCount := 0, closeTag := none }
    d.endClosing t = e.answerClosed (d.tunnel t).closeTag := by
  intro e
  have work : ¬ d.inWorkOf t = true := fun h => free (.inr (by
    unfold Device.inWorkOf at h
    cases is : d.engine.inWork with
    | none => rw [is] at h; cases h
    | some w => rw [is] at h; exact ⟨w, rfl, of_decide_eq_true h⟩))
  unfold Device.endClosing
  exact if_pos ⟨closing, fun h => free (.inl h), work⟩

/-- Settles O44. -/
theorem closedTunnelsLoseTheirFrames : Obligations.ClosedTunnelsLoseTheirFrames := by
  refine ⟨fun s q posed => ?_, fun d t k => (d.removeFrames_spec t).1 k, Device.removeFrames_eq, fun d t closing => ?_⟩
  · intro t x d e e' e''
    rw [exec_posed (c := .closeTunnel .operations) rfl posed]
    unfold Device.closeTunnel
    simp only [Device.conclude_ite, State.to_ite, Device.tunnel_taken]
    exact ite_congr_iff x.state.not_live_iff rfl rfl
  · intro waits
    refine ⟨fun h => Device.endClosing_waits h, fun free => ?_⟩
    obtain ⟨queues, -, records, keys, operations, -⟩ := d.removeFrames_spec t
    obtain ⟨rest, others, record, freed, kept⟩ := (d.removeFrames t).dropKeys_spec t
    have slots : ∀ slot, ((d.removeFrames t).tunnel t).key? slot = (d.tunnel t).key? slot := fun slot => by
      rw [← Tunnel.key?_withoutCounts, records t, Tunnel.key?_withoutCounts]
    have engine : ((d.removeFrames t).dropKeys t).engine = (d.removeFrames t).engine := by
      have h := congrArg Device.engine rest
      exact h
    have responses : ((d.removeFrames t).dropKeys t).operations = d.operations := by
      have h := congrArg Device.operations rest
      exact h.trans operations
    simp only [slots] at freed kept
    rw [keys] at kept
    rw [Device.endClosing_ends closing free]
    generalize (d.removeFrames t).dropKeys t = gone at *
    generalize d.removeFrames t = removed at *
    obtain ⟨same_tunnel, same_keys, same_engine, responds, same_rest⟩ := Device.answerClosed_spec (gone.modTunnel t fun x =>
      { x with
        state := .empty, shop := none, profile := none, outCauses := ⟨false, false, false⟩, inOps := false
        retryCount := 0, closeTag := none }) (d.tunnel t).closeTag
    generalize Device.answerClosed _ _ = ended at *
    simp only
    rw [same_tunnel t, same_keys, same_engine, responds, Device.tunnel_modTunnel, if_pos rfl, record]
    refine ⟨rfl, rfl, rfl, rfl, rfl, rfl, rfl, rfl, rfl, rfl, freed, kept, ?_, fun k => ?_, fun u other => ?_, ?_⟩
    · rw [← responses]
      rfl
    · rw [← queues, ← engine]
      rfl
    · rw [same_tunnel u, Device.tunnel_modTunnel, if_neg other]
      exact others u other
    · have first := congrArg (fun z : Device =>
        { z with
          tunnels := removed.tunnels, keys := { z.keys with entries := removed.keys.entries }
          operations := removed.operations }) same_rest
      have second := congrArg (fun z : Device => { z with operations := removed.operations }) rest
      rw [← same_engine, ← same_keys]
      exact first.trans second

end Sys2Proof.Machine
end

/-! PROOF. The write of a profile by its groups, and the re-examination it makes (R47, R48, R49). -/
section

namespace Sys2Proof.Machine

/-! ### Operands -/

theorem beNat_append (a : List Byte) (b : Byte) : beNat (a ++ [b]) = beNat a * 256 + b.toNat := by
  simp [beNat]

theorem beNat_lt (bs : List Byte) : beNat bs < 256 ^ bs.length := by
  rw [← List.reverse_reverse bs]
  induction bs.reverse with
  | nil => exact Nat.one_pos
  | cons b bs ih =>
    have byte : b.toNat < 256 := b.isLt
    rw [List.reverse_cons, beNat_append, List.length_append, List.length_singleton, Nat.pow_succ]
    omega

/-- A number operand of two bytes. -/
theorem Request.num_two_le (q : Request) (off : Nat) : q.num off 2 ≤ 65535 := by
  have below := beNat_lt (slice q.operands off 2)
  have short : (slice q.operands off 2).length ≤ 2 := List.length_take_le ..
  have : 256 ^ (slice q.operands off 2).length ≤ 256 ^ 2 := Nat.pow_le_pow_right (by omega) short
  show beNat (slice q.operands off 2) ≤ 65535
  omega

/-! ### The groups of a profile -/

theorem Profile.keysOk_iff (p : Profile) :
    p.keysOk = true ↔ 1 ≤ p.softFrames ∧ p.softFrames ≤ p.hardFrames ∧ p.hardFrames ≤ 1099511627776
      ∧ 60 ≤ p.softAge ∧ p.softAge ≤ p.hardAge ∧ p.hardAge ≤ 2592000 ∧ 100 ≤ p.grace ∧ p.grace ≤ 60000 := by
  simp only [Profile.keysOk, within, Bool.and_eq_true, decide_eq_true_eq]
  omega

theorem Profile.conditionOk_iff (p : Profile) :
    p.conditionOk = true ↔ p.keepalive ≤ 300 ∧ 3 ≤ p.silence ∧ p.silence ≤ 3600 ∧ 1 ≤ p.interval ∧ p.interval ≤ 60
      ∧ 1 ≤ p.persistence ∧ p.persistence ≤ 8
      ∧ p.authThreshold ≤ 65535 ∧ p.replayThreshold ≤ 65535 ∧ p.epochThreshold ≤ 65535 := by
  simp only [Profile.conditionOk, within, Bool.and_eq_true, decide_eq_true_eq]
  omega

theorem Profile.faultsOk_iff (p : Profile) :
    p.faultsOk = true ↔ 1 ≤ p.holdTime ∧ p.holdTime ≤ 600 ∧ p.retryLimit ≤ 7 := by
  simp only [Profile.faultsOk, within, Bool.and_eq_true, decide_eq_true_eq]
  omega

/-- A KEYS group written (R47, R48). -/
theorem Profile.written_keys (old : Profile) (q : Request) :
    let keys : Profile := { old with
      softFrames := q.num 2 6, hardFrames := q.num 8 6, softAge := q.num 14 4, hardAge := q.num 18 4
      grace := q.num 22 2, followPeer := decide (q.num 24 1 = 1) }
    old.written .keys q = if 1 ≤ keys.softFrames ∧ keys.softFrames ≤ keys.hardFrames ∧ keys.hardFrames ≤ 1099511627776
      ∧ 60 ≤ keys.softAge ∧ keys.softAge ≤ keys.hardAge ∧ keys.hardAge ≤ 2592000 ∧ 100 ≤ keys.grace
      ∧ keys.grace ≤ 60000 ∧ q.num 24 1 ≤ 1 then some keys else none := by
  intro keys
  have range : keys.keysOk = true ∧ q.num 24 1 ≤ 1 ↔ 1 ≤ keys.softFrames ∧ keys.softFrames ≤ keys.hardFrames
      ∧ keys.hardFrames ≤ 1099511627776 ∧ 60 ≤ keys.softAge ∧ keys.softAge ≤ keys.hardAge ∧ keys.hardAge ≤ 2592000
      ∧ 100 ≤ keys.grace ∧ keys.grace ≤ 60000 ∧ q.num 24 1 ≤ 1 := by
    rw [keys.keysOk_iff]
    simp only [and_assoc]
  simp only [← range]
  have switch : (q.num 24 1 ≤ 1 → switchOf (q.num 24 1) = some (decide (q.num 24 1 = 1)))
      ∧ (¬ q.num 24 1 ≤ 1 → switchOf (q.num 24 1) = none) := by
    match q.num 24 1 with
    | 0 => exact ⟨fun _ => rfl, fun h => absurd (by decide) h⟩
    | 1 => exact ⟨fun _ => rfl, fun h => absurd (by decide) h⟩
    | _ + 2 => exact ⟨fun h => absurd h (by omega), fun _ => rfl⟩
  unfold Profile.written
  by_cases known : q.num 24 1 ≤ 1
  · simp only [switch.1 known]
    exact ite_congr_iff (and_iff_left known).symm rfl rfl
  · simp only [switch.2 known]
    exact (if_neg fun h => known h.2).symm

/-- A CONDITION group written (R47, R48). -/
theorem Profile.written_condition (old : Profile) (q : Request) :
    let condition : Profile := { old with
      keepalive := q.num 2 2, silence := q.num 4 2, interval := q.num 6 1, authThreshold := q.num 7 2
      replayThreshold := q.num 9 2, epochThreshold := q.num 11 2, persistence := q.num 13 1 }
    old.written .condition q = if condition.keepalive ≤ 300 ∧ 3 ≤ condition.silence ∧ condition.silence ≤ 3600
      ∧ 1 ≤ condition.interval ∧ condition.interval ≤ 60 ∧ 1 ≤ condition.persistence ∧ condition.persistence ≤ 8
      then some condition else none := by
  intro condition
  unfold Profile.written
  refine ite_congr_iff (condition.conditionOk_iff.trans ?_) rfl rfl
  have thresholds : condition.authThreshold ≤ 65535 ∧ condition.replayThreshold ≤ 65535
      ∧ condition.epochThreshold ≤ 65535 := ⟨q.num_two_le 7, q.num_two_le 9, q.num_two_le 11⟩
  simp only [thresholds, and_true]

/-- A FAULTS group written (R47, R48). -/
theorem Profile.written_faults (old : Profile) (q : Request) :
    let report := q.num 2 1
    let action := q.num 3 1
    let faults : Profile := { old with
      report := ⟨report.testBit 0, report.testBit 1, report.testBit 2, report.testBit 3, report.testBit 4,
        report.testBit 5, true⟩
      action := ⟨action.testBit 0, action.testBit 1, action.testBit 2, action.testBit 3⟩
      holdTime := q.num 4 2, retryLimit := q.num 6 1 }
    old.written .faults q = if report < 128 ∧ action < 16 ∧ 1 ≤ faults.holdTime ∧ faults.holdTime ≤ 600
      ∧ faults.retryLimit ≤ 7 then some faults else none := by
  intro report action faults
  unfold Profile.written
  by_cases low : report < 128
  · have is : reportOf (q.num 2 1) = some _ := if_pos low
    by_cases low' : action < 16
    · have is' : actionOf (q.num 3 1) = some _ := if_pos low'
      simp only [is, is']
      refine ite_congr_iff (faults.faultsOk_iff.trans ?_) rfl rfl
      simp only [low, low', true_and]
    · have is' : actionOf (q.num 3 1) = none := if_neg low'
      simp only [is, is']
      exact (if_neg fun h => low' h.2.1).symm
  · have is : reportOf (q.num 2 1) = none := if_neg low
    simp only [is]
    exact (if_neg fun h => low h.1).symm

/-! ### The re-examination -/

theorem TunnelState.reexamined_iff (x : TunnelState) :
    x.reexamined = true ↔ x = .inService ∨ x = .isolated ∨ x = .failed := by
  cases x <;> simp [TunnelState.reexamined]

/-- A CURRENT key whose age is known, re-examined (R49). -/
theorem CurrentKey.reexamine_eq (c : CurrentKey) (p : Profile) {start : Clock} {age : Nat} {known : Option Nat}
    (started : c.key.ageStart = some start) (aged : known = some age) :
    let expires := c.state ≠ .expired ∧ p.hardAge * 1000000 ≤ age
    let counted := c.state = .active ∧ p.hardFrames ≤ c.key.outCount
    let state : CurrentState := if expires then .expired else if counted then .spent else c.state
    let deadline (limit : Nat) : Option Clock :=
      if state ≠ .expired ∧ age < limit * 1000000 then some (start + BitVec.ofNat 48 (limit * 1000000)) else none
    c.reexamine p known = ⟨state, { c.key with
      expired := if expires then .unreported .age else if counted then .unreported .spent else c.key.expired
      renewal :=
        if c.key.renewal ≠ .no then c.key.renewal
        else if p.softFrames ≤ c.key.outCount then .unreported .frames
        else if p.softAge * 1000000 ≤ age then .unreported .age
        else .no
      softDeadline := deadline p.softAge, hardDeadline := deadline p.hardAge }⟩ := by
  intro expires counted state deadline
  have seconds_eq : ∀ n, seconds n = n * 1000000 := fun _ => rfl
  have ends : c.ageEnds p known = true ↔ expires := by
    simp only [CurrentKey.ageEnds, aged, Option.getD_some, seconds_eq, decide_eq_true_eq, expires]
  have counts : c.countEnds p = true ↔ counted := decide_eq_true_iff
  have kept : ∀ limit, (if state = .expired then none else keptDeadline c.key.ageStart known limit) = deadline limit := by
    intro limit
    simp only [deadline, aged, started, keptDeadline, later, seconds_eq]
    by_cases gone : state = .expired
    · rw [if_pos gone, if_neg fun h => h.1 gone]
    · rw [if_neg gone]
      exact ite_congr_iff (and_iff_right gone).symm rfl rfl
  have renewal : (if p.softFrames ≤ c.key.outCount then c.key.renewal.raise .frames
      else if seconds p.softAge ≤ known.getD 0 then c.key.renewal.raise .age else c.key.renewal)
      = if c.key.renewal ≠ .no then c.key.renewal
        else if p.softFrames ≤ c.key.outCount then .unreported .frames
        else if p.softAge * 1000000 ≤ age then .unreported .age
        else .no := by
    simp only [aged, Option.getD_some, seconds_eq]
    cases c.key.renewal <;> simp [Flag.raise]
  unfold CurrentKey.reexamine
  simp only [ends, counts, renewal]
  rw [← kept, ← kept]

/-- Settles O46. -/
theorem profilesAreWrittenByGroup : Obligations.ProfilesAreWrittenByGroup := by
  refine ⟨fun s q posed => ?_, fun d n => ?_, fun d t c start current started => ?_⟩
  · intro n group d old keys condition report action faults keysInRange conditionInRange faultsInRange with_ accepted
      refused
    rw [exec_posed (c := .writeProfile .operations) rfl posed]
    unfold Device.writeProfile
    simp only [Device.conclude_ite, State.to_ite]
    refine ite_congr_iff Iff.rfl rfl ?_
    have profile : d.profileAt n = old := congrArg (fun ps => ps.getD n Config.factoryProfile) (Device.profiles_taken ..)
    have set_ : d.profiles.set n = s.dev.profiles.set n := congrArg (fun ps => ps.set n) (Device.profiles_taken ..)
    have accepts : ∀ (g : ProfileGroup) (c : Prop) [Decidable c] (p : Profile),
        groupOf (q.num 1 1) = some g → old.written g q = (if c then some p else none) →
          s.to (d.conclude .operations q (((catalogue q.code).map (·.places)).getD 1)
            (match groupOf (q.num 1 1) with
              | none => .refuse .badRequest
              | some g => match (d.profileAt (q.num 0 1)).written g q with
                | none => .refuse .badRequest
                | some p => .answer (if g = .keys then { d with profiles := d.profiles.set (q.num 0 1) p }.reexamine
                    (q.num 0 1) else { d with profiles := d.profiles.set (q.num 0 1) p }) (.done .empty)))
          = if c then accepted (if g = .keys then (with_ p).reexamine n else with_ p) else refused := by
      intro g c _ p is written
      simp only [is, profile, written, show d.profileAt (q.num 0 1) = old from profile,
        show d.profiles.set (q.num 0 1) = s.dev.profiles.set n from set_]
      by_cases h : c
      · simp only [if_pos h]
        rfl
      · simp only [if_neg h]
        rfl
    match is : group with
    | 0 => exact accepts .keys keysInRange keys (congrArg groupOf is) (old.written_keys q)
    | 1 => exact accepts .condition conditionInRange condition (congrArg groupOf is) (old.written_condition q)
    | 2 => exact accepts .faults faultsInRange faults (congrArg groupOf is) (old.written_faults q)
    | _ + 3 =>
      have is : groupOf (q.num 1 1) = none := congrArg groupOf is
      rw [is]
      rfl
  · unfold Device.reexamine
    refine congrArg (fun f => (List.range 480).foldl f d) (funext fun d => funext fun t => ?_)
    simp only [TunnelState.reexamined_iff]
  · intro p age expires counted state deadline key e e' e''
    have aged : d.ageOf c.key = some age := congrArg (Option.map d.since) started
    have ends : c.ageEnds p (d.ageOf c.key) = true ↔ expires := by rw [aged]; exact decide_eq_true_iff
    have counts : c.countEnds p = true ↔ counted := decide_eq_true_iff
    have after : c.reexamine p (d.ageOf c.key) = ⟨state, key⟩ := c.reexamine_eq p started aged
    unfold Device.reexamineTunnel
    rw [current]
    change (if c.ageEnds p (d.ageOf c.key) = true then Device.tunnelFault _ _ _ _ else _) = _
    simp only [show d.profileOf t = p from rfl, after, ends, counts]
    rfl

end Sys2Proof.Machine
end

/-! PROOF. The reads: each tells the record as it stands (R44, R46, R50, R67, R107, R137, R138, R157, R169). -/
section

namespace Sys2Proof.Machine

/-- A read that is posed is answered with its body. -/
theorem exec_tells {c : Instr} {p : Port} {code : Nat} {own : Device → Request → Taken} {q : Request} {s : State}
    (req : requestOf c = some (p, code, own)) (posed : s.dev.Poses p q code) {body : Body}
    (tells : own (s.dev.taken p code) q = .tell (s.dev.taken p code) body) :
    exec c s = s.to (s.dev.answered p q ⟨.done, .none, body⟩) := by
  obtain ⟨-, -, is, -⟩ := id posed
  rw [exec_posed req posed, tells]
  subst is
  rfl

theorem Tunnel.level_eq (x : Tunnel) :
    x.level = if x.state ≠ .inService then .stopped
      else if x.outCauses ≠ ⟨false, false, false⟩ then (if x.inOps then .stopped else .receiveOnly)
      else if x.inOps then .sendOnly else .full := by
  unfold Tunnel.level
  by_cases service : x.state = .inService
  · rw [service, if_neg (Classical.not_not.mpr rfl)]
    by_cases free : x.outCauses = ⟨false, false, false⟩
    · rw [if_neg (Classical.not_not.mpr free), x.outCauses.isEmpty_iff.mpr free]
      cases x.inOps <;> rfl
    · rw [if_pos free, Bool.eq_false_iff.mpr fun h => free (x.outCauses.isEmpty_iff.mp h)]
      cases x.inOps <;> rfl
  · rw [if_pos service]
    cases state : x.state <;> simp_all

/-- Settles O47. -/
theorem tunnelReadsTellTheRecord : Obligations.TunnelReadsTellTheRecord := by
  intro s q d x held level current next view slot age
  have level_is : x.level = level := x.level_eq
  refine ⟨fun posed => ?_, fun posed => ?_, fun posed => ?_, fun posed => ?_⟩
  · refine exec_tells (c := .readService .traffic) rfl posed ?_
    rw [← level_is]
    rfl
  · refine exec_tells (c := .readTunnel .operations) rfl posed ?_
    rw [← level_is]
    rfl
  · refine exec_tells (c := .readSlots .key) rfl posed ?_
    rfl
  · have told : ∀ g, s.dev.Poses .operations q 17 → groupOf (q.num 1 1) = some g → ¬ 7 < q.num 0 1 →
        Device.tellProfile (s.dev.taken .operations 17) q = .tell (s.dev.taken .operations 17)
          (.profile ((s.dev.profileAt (q.num 0 1)).values g) (s.dev.namedBy (q.num 0 1))) := by
      intro g posed is low
      unfold Device.tellProfile
      simp only [is, if_neg low]
      rfl
    have refused : Device.tellProfile (s.dev.taken .operations 17) q = .refuse .badRequest →
        exec (.readProfile .operations) s = s.to (s.dev.answered .operations q (.refusal .badRequest)) := by
      intro h
      obtain ⟨-, -, is, -⟩ := id posed
      rw [exec_posed (c := .readProfile .operations) rfl posed, h, ← is]
      rfl
    cases is : groupOf (q.num 1 1) with
    | none =>
      refine refused ?_
      unfold Device.tellProfile
      simp only [is]
    | some g =>
      simp only
      by_cases high : 7 < q.num 0 1
      · rw [if_pos high]
        refine refused ?_
        unfold Device.tellProfile
        simp only [is, if_pos high]
      · rw [if_neg high]
        exact exec_tells (c := .readProfile .operations) rfl posed ((told g posed is high).trans (by cases g <;> rfl))

/-- Settles O48. -/
theorem operationsReadsTellTheState : Obligations.OperationsReadsTellTheState := by
  intro s q d e c waited
  refine ⟨fun posed => ?_, fun posed => ?_, fun posed => ?_, fun posed => ?_, fun posed => ?_⟩
  · refine exec_tells (c := .readEngine .operations) rfl posed ?_
    have waits : ∀ fs, s.dev.waited fs = waited fs := fun fs => by cases fs <;> rfl
    simp only [← waits]
    rfl
  · refine exec_tells (c := .readCondition .operations) rfl posed ?_
    rfl
  · refine exec_tells (c := .readDeviceFaults .operations) rfl posed ?_
    rfl
  · refine exec_tells (c := .readProof .operations) rfl posed ?_
    have left_ : s.dev.echoLeft = match s.dev.proofs.running.map ProofRecord.phase with
        | some (.awaitEcho _ deadline) => some (deadline - s.dev.clock).toNat
        | _ => none := by
      unfold Device.echoLeft
      cases s.dev.proofs.running with
      | none => rfl
      | some r => cases phase : r.phase <;> simp only [Option.map_some, phase]
    exact congrArg (fun left_ => Taken.tell (s.dev.taken .operations 26) (.proof
      { running := d.proofs.running, echoLeft := left_, capture := d.proofs.capture, last := d.proofs.last
        serial := d.proofs.serial, queued := d.proofs.retry.length, head := d.proofs.retry.head?
        patterns := d.proofs.patterns })) left_
  · refine exec_tells (c := .readMonitors .operations) rfl posed ?_
    have shown : ∀ m : Monitor, s.dev.monitorView m =
        { counter := m.counter, overflow := m.overflow, source := m.source, filter := m.filter, mode := m.mode
          compare := m.compare, threshold := m.threshold, freeze := m.freeze
          level := match m.source with
            | .level l => some (d.level l, match m.compare with
              | .atOrAbove => decide (m.threshold ≤ d.level l)
              | .below => decide (d.level l < m.threshold))
            | _ => none } := by
      intro m
      unfold Device.monitorView Device.conditionHolds
      cases m.source <;> cases m.compare <;> rfl
    exact congrArg (fun ms => Taken.tell (s.dev.taken .operations 31)
      (.bank ⟨d.bank.state, d.bank.elapsed, d.clock, ms⟩)) (List.map_congr_left fun m _ => shown m)

end Sys2Proof.Machine
end

/-! PROOF. Faults: an occurrence latched, offered and acted on, and a latch acknowledged (R128, R129, R130, R131, R132,
R135, R151). -/
section

namespace Sys2Proof.Machine

/-! ### Latches offered -/

theorem Device.opsRoom_iff (d : Device) : d.opsRoom = true ↔ d.opsTaken < 128 := decide_eq_true_iff

theorem Latch.waits_iff (l : Latch) : l.waits = true ↔ l.report = .unreported := decide_eq_true_iff

/-- A tunnel's latch that waits is told while a place is free (R131, R133). -/
theorem Device.offerTunnel_eq {d : Device} {t : Nat} {k : TunnelFault} {l : Latch} (is : d.latch t k = some l) :
    d.offerTunnel t k = if l.report = .unreported ∧ d.opsTaken < 128 then
        (d.setLatch t k (some { l with report := .reported })).pushNotice .operations
          ⟨some t, d.clock, .tunnelFault k { l with report := .reported } (d.tunnel t).state⟩
      else d := by
  unfold Device.offerTunnel
  rw [is]
  refine ite_congr_iff ?_ rfl rfl
  rw [Bool.and_eq_true, l.waits_iff, d.opsRoom_iff]

/-- A device latch that waits is told while a place is free (R131). -/
theorem Device.offerDevice_eq {d : Device} {k : DeviceFault} {l : Latch} (is : d.faults.get k = some l) :
    d.offerDevice k = if l.report = .unreported ∧ d.opsTaken < 128 then
        { d with faults := d.faults.set k (some { l with report := .reported }) }.pushNotice .operations
          ⟨none, d.clock, .deviceFault k { l with report := .reported }⟩
      else d := by
  unfold Device.offerDevice
  rw [is]
  refine ite_congr_iff ?_ rfl rfl
  rw [Bool.and_eq_true, l.waits_iff, d.opsRoom_iff]

/-- The report of a latch as it is set (R128). -/
theorem fresh_report (told : Bool) :
    (if told then ReportState.unreported else .silent) = .unreported ↔ told = true := by
  cases told <;> simp

/-! ### Occurrences -/

/-- The latching of a clear latch of a tunnel, with its offer (R128). -/
def Device.latched (d : Device) (t : Nat) (k : TunnelFault) (l : Latch) : Device :=
  let e := d.setLatch t k (some l)
  (if l.report = .unreported ∧ d.opsTaken < 128 then
    (e.setLatch t k (some { l with report := .reported })).pushNotice .operations
      ⟨some t, d.clock, .tunnelFault k { l with report := .reported } (d.tunnel t).state⟩
  else e).give .faultsLatched (some t)

theorem Device.profileOf_give (d : Device) (e : EventSource) (c : Option Nat) (u : Nat) :
    (d.give e c).profileOf u = d.profileOf u := rfl

theorem Device.profileOf_pushNotice (d : Device) (p : Port) (n : Notice) (u : Nat) :
    (d.pushNotice p n).profileOf u = d.profileOf u := by
  cases p <;> rfl

theorem Device.clock_pushNotice (d : Device) (p : Port) (n : Notice) : (d.pushNotice p n).clock = d.clock := by
  cases p <;> rfl

theorem Device.latched_kept (d : Device) (t : Nat) (k : TunnelFault) (l : Latch) (u : Nat) :
    (d.latched t k l).profileOf u = d.profileOf u ∧ (d.latched t k l).clock = d.clock := by
  unfold Device.latched
  simp only
  rw [Device.profileOf_give]
  split
  · rw [Device.profileOf_pushNotice, Device.profileOf_setLatch, Device.profileOf_setLatch]
    exact ⟨rfl, Device.clock_pushNotice ..⟩
  · rw [Device.profileOf_setLatch]
    exact ⟨rfl, rfl⟩

theorem Device.latchTunnel_eq {d : Device} {t : Nat} {k : TunnelFault} (clear : d.latch t k = none) (detail : Nat)
    (isolates : Bool) :
    d.latchTunnel t k detail isolates =
      d.latched t k (Latch.fresh d.clock ((d.profileOf t).report.has k) detail isolates) := by
  unfold Device.latchTunnel
  rw [clear]
  simp only
  rw [Device.offerTunnel_eq (d.latch_setLatch t k _), Device.state_setLatch]
  rfl

/-- Settles O49. -/
theorem faultsLatchOnce : Obligations.FaultsLatchOnce := by
  refine ⟨fun d t k detail => ?_, fun d k detail => ?_, fun d => ?_, fun purpose => by cases purpose <;> rfl,
    fun d t cause reaches => ?_, fun d t c => ?_⟩
  · intro x p
    refine ⟨fun l is => ?_, fun clear => ?_⟩
    · unfold Device.tunnelFault Device.latchTunnel
      simp only [is, reduceCtorEq, decide_false, Bool.false_and]
      rfl
    · intro isolates l e e' e''
      have same : d.latched t k l = e'' := by
        refine congrArg (fun e : Device => e.give .faultsLatched (some t)) (ite_congr_iff ?_ rfl rfl)
        exact and_congr_left fun _ => fresh_report _
      have latch_is : d.latchTunnel t k detail isolates = e'' := (Device.latchTunnel_eq clear detail isolates).trans same
      obtain ⟨profile, clock⟩ := d.latched_kept t k l t
      rw [same] at profile clock
      unfold Device.tunnelFault Device.isolate
      simp only [clear, decide_true, Bool.true_and]
      change (if isolates = true then Device.abortProof (Device.modTunnel (d.latchTunnel t k detail isolates) t _) t
        .isolated onlyOperations else d.latchTunnel t k detail isolates) = _
      rw [latch_is, profile]
      refine ite_congr_iff Iff.rfl ?_ rfl
      unfold Device.after
      rw [clock]
      rfl
  · refine ⟨fun l is => ?_, fun clear => ?_⟩
    · unfold Device.deviceFault
      rw [is]
      rfl
    · intro l e
      unfold Device.deviceFault
      rw [clear]
      simp only
      rw [Device.offerDevice_eq (DeviceLatches.get_set _ _ _)]
      simp only [DeviceLatches.set_set]
      refine congrArg (fun e : Device => e.give .faultsLatched none) (ite_congr_iff ?_ rfl rfl)
      exact and_congr_left fun _ => fresh_report _
  · intro waits
    have is_waiting : ∀ l : Option Latch, l.any (·.waits) = waits l := by
      intro l
      cases l with
      | none => rfl
      | some l => exact Bool.eq_iff_iff.mpr (l.waits_iff.trans decide_eq_true_iff.symm)
    refine ⟨?_, fun _ => rfl, fun k l is unreported => ?_, fun t k l is unreported => ?_⟩
    · unfold Device.waitingFaults
      simp only [is_waiting]
      rfl
    · show d.offerDevice k = _
      rw [Device.offerDevice_eq is]
      exact ite_congr_iff (and_iff_right unreported) rfl rfl
    · show d.offerTunnel t k = _
      rw [Device.offerTunnel_eq is]
      exact ite_congr_iff (and_iff_right unreported) rfl rfl
  · obtain ⟨aborts, stands⟩ := d.abortProof_eq t cause reaches
    refine ⟨fun r running on reached => aborts ⟨r, running, on, reached⟩, fun none_ => stands ?_⟩
    rintro ⟨r, running, on, reached⟩
    rw [none_ r running on] at reached
    cases reached
  · intro x present e
    have has : x.outCauses.has c = present := by cases c <;> rfl
    have added : (d.modTunnel t fun x => { x with outCauses := x.outCauses.add c }) = e := by cases c <;> rfl
    obtain ⟨aborts, stands⟩ := e.abortProof_eq t .outboundCause anyPurpose
    unfold Device.addKeyCause
    rw [added, show (d.tunnel t).outCauses.has c = present from has]
    refine ⟨fun h => ?_, fun h => ⟨fun r running on => ?_, fun none_ => ?_⟩⟩ <;> rw [h]
    · rfl
    · exact aborts ⟨r, running, on, rfl⟩
    · exact stands fun ⟨r, running, on, _⟩ => none_ r running on

/-! ### Acknowledgements -/

theorem deviceKindOf_eq (n : Nat) : deviceKindOf n =
    if n < 7 ∨ 10 < n then none else some ((DeviceFault.all[n - 7]?).getD .keystoreLow) := by
  unfold deviceKindOf
  by_cases low : n < 7
  · rw [if_pos low, if_pos (.inl low)]
  · rw [if_neg low]
    by_cases high : 10 < n
    · rw [if_pos (.inr high)]
      exact List.getElem?_eq_none (show 4 ≤ n - 7 by omega)
    · rw [if_neg (by omega)]
      have inside : n - 7 < DeviceFault.all.length := show n - 7 < 4 by omega
      rw [List.getElem?_eq_getElem inside]
      rfl

theorem Notice.isTunnelFault_eq (t : Nat) (k : TunnelFault) : Notice.isTunnelFault t k = fun n => match n.body with
    | .tunnelFault k' .. => decide (n.tunnel = some t ∧ k' = k)
    | _ => false := by
  funext n
  unfold Notice.isTunnelFault
  cases n.body <;> rfl

theorem Notice.isDeviceFault_eq (k : DeviceFault) : Notice.isDeviceFault k = fun n => match n.body with
    | .deviceFault k' _ => decide (k' = k)
    | _ => false := by
  funext n
  unfold Notice.isDeviceFault
  cases n.body <;> rfl

/-- Settles O50. -/
theorem acknowledgedLatchesClear : Obligations.AcknowledgedLatchesClear := by
  intro s q posed t kind d without
  rw [exec_posed (c := .ackFault .operations) rfl posed]
  obtain ⟨-, -, code, -⟩ := id posed
  unfold Device.ackFault
  refine ⟨fun plain => ?_, fun device => ?_⟩
  · have notDevice : ¬ q.device = true := fun h => by
      have := (q.device_iff.mp h).2
      omega
    rw [if_neg notDevice]
    show s.to (d.conclude _ _ _ (match TunnelFault.all[kind]? with
      | some k => d.ackTunnel t k
      | none => .refuse .badRequest)) = _
    cases TunnelFault.all[kind]? with
    | none => rfl
    | some k =>
      simp only
      unfold Device.ackTunnel
      rw [show d.latch t k = s.dev.latch t k from congrArg (fun x : Tunnel => x.condition.latches.get k)
        (Device.tunnel_taken ..)]
      cases s.dev.latch t k with
      | none => rfl
      | some l =>
        refine congrArg (fun e : Device =>
          s.to (e.respond .operations q ⟨.done, .cleared, .cleared l.stamp l.observed⟩).finish) ?_
        unfold Device.removeNotices
        rw [Notice.isTunnelFault_eq]
        cases k <;> rfl
  · rw [if_pos (q.device_iff.mpr ⟨code, device⟩), show deviceKindOf (q.num 0 1) = _ from deviceKindOf_eq kind]
    by_cases bad : kind < 7 ∨ 10 < kind
    · rw [if_pos bad, if_pos bad]
      rfl
    · rw [if_neg bad, if_neg bad]
      simp only
      unfold Device.ackDevice
      rw [Device.faults_taken]
      generalize (DeviceFault.all[kind - 7]?).getD .keystoreLow = k
      cases s.dev.faults.get k with
      | none => rfl
      | some l =>
        refine congrArg (fun e : Device =>
          s.to (e.respond .operations q ⟨.done, .cleared, .cleared l.stamp l.observed⟩).finish) ?_
        unfold Device.removeNotices
        rw [Notice.isDeviceFault_eq] <;> rfl

end Sys2Proof.Machine
end

/-! PROOF. Proofs: their starts, frames, misses and ends, and the patterns (R13, R140, R141, R143, R144, R147, R148, R149,
R150, R153, R154, R155, R156). -/
section

namespace Sys2Proof.Machine

/-! ### The frame of the running proof -/

/-- The cells of a proof's frame are those that its pattern's length asks for (R13, R19). -/
theorem cellsFor_proofPayload (p : Pattern) (serial : BitVec 32) :
    cellsFor ((proofPayload p serial).length + 32) = cellsFor (p.length + 32) := by
  rw [length_proofPayload]
  unfold cellsFor
  omega

/-- Settles O56. -/
theorem proofFramesAreBuiltWhenRoomAppears : Obligations.ProofFramesAreBuiltWhenRoomAppears := by
  intro s d
  refine ⟨fun r running waits => ?_, fun idle => ?_⟩
  · intro pattern n serial payload cells f
    show s.to s.dev.buildAttempt.finish = _
    have cells_is : cellsFor ((proofPayload pattern serial).length + 32) = n := cellsFor_proofPayload pattern serial
    have grant : d.partGrant (cellsFor (pattern.length + 32)) =
        if 256 < s.dev.store.charged .reserved + n then .poolShort
        else if 64 ≤ s.dev.engine.control.length ∨ 64 ≤ s.dev.traffic.notices.length + s.dev.generatedReserved then
          .placeShort
        else .granted := d.partGrant_eq n
    unfold Device.buildAttempt
    simp only [running, waits, if_true]
    rw [show ({ s.dev with buildDue := false } : Device).partGrant
      (cellsFor ((s.dev.proofs.pattern r.entry).length + 32)) = _ from grant]
    by_cases short : 256 < s.dev.store.charged .reserved + n
    · rw [if_pos short, if_pos short]
    · rw [if_neg short, if_neg short]
      by_cases full : 64 ≤ s.dev.engine.control.length
          ∨ 64 ≤ s.dev.traffic.notices.length + s.dev.generatedReserved
      · rw [if_pos full, if_pos full]
      · rw [if_neg full, if_neg full]
        refine congrArg (fun e : Device => s.to e.finish) ?_
        unfold Device.queuePart
        simp only
        rw [show cellsFor ((proofPayload (s.dev.proofs.pattern r.entry) (nextSerial s.dev.proofs.serial)).length + 32) = n
          from cells_is]
        rfl
  · show s.to s.dev.buildAttempt.finish = _
    refine congrArg (fun e : Device => s.to e.finish) ?_
    unfold Device.buildAttempt
    simp only
    split
    · rename_i r running
      refine if_neg fun waits => ?_
      have : s.dev.proofWaits = true := s.dev.proofWaits_iff.mpr ⟨r, running, waits⟩
      rw [idle] at this
      cases this
    · rfl

/-! ### Starts -/

theorem ProofUnit.activeFrom_zero (u : ProofUnit) :
    u.activeFrom 0 = (List.range 8).find? fun i => decide ((u.patterns.getD i ⟨0, 0, 0⟩).length ≠ 0) := by
  unfold ProofUnit.activeFrom
  simp only [Nat.zero_le, decide_true, Bool.true_and]
  rfl

theorem Device.opsQueueOpen_iff (d : Device) : d.opsQueueOpen = true ↔ d.operations.notices.length < 128 :=
  decide_eq_true_iff

/-- The retry start test where it passes, and where it does not (R141, R143). -/
theorem Device.retryStartTest_eq (d : Device) :
    (∀ t rest, d.proofs.running = none → d.proofs.retry = t :: rest → d.operations.notices.length < 128 →
      let first := ((List.range 8).find? fun i => decide ((d.proofs.patterns.getD i ⟨0, 0, 0⟩).length ≠ 0)).getD 0
      d.retryStartTest =
        ({ d with proofs := { d.proofs with
            running := some ⟨t, .retry, .stopFirst, 1, 0, first, .waitCell, List.replicate 8 0, 0, 0⟩
            capture := none, retry := rest } }.modTunnel t fun x => { x with underProof := true }).buildAttempt)
      ∧ (d.proofs.running ≠ none ∨ d.proofs.retry = [] ∨ 128 ≤ d.operations.notices.length → d.retryStartTest = d) := by
  refine ⟨fun t rest idle queued room => ?_, fun fails => ?_⟩
  · intro first
    unfold Device.retryStartTest Device.startProof
    simp only [idle, queued]
    rw [if_pos (d.opsQueueOpen_iff.mpr room), ProofUnit.activeFrom_zero]
  · unfold Device.retryStartTest
    split
    · rename_i t rest idle queued
      refine if_neg fun open_ => ?_
      have := d.opsQueueOpen_iff.mp open_
      obtain h | h | h := fails
      · exact h idle
      · rw [h] at queued
        cases queued
      · omega
    · rfl

/-- Settles O55. -/
theorem restoredTunnelsAreRetried : Obligations.RestoredTunnelsAreRetried := by
  refine ⟨fun s q posed => ?_, fun s => rfl, Device.retryStartTest_eq⟩
  intro t d e
  rw [exec_posed (c := .restoreTunnel .operations) rfl posed]
  unfold Device.restore
  simp only [Device.conclude_ite, State.to_ite, Device.tunnel_taken]
  rfl

theorem proofModeOf_big {n : Nat} (h : 1 < n) : proofModeOf n = none := by
  match n with
  | _ + 2 => rfl

theorem proofModeOf_small {n : Nat} (h : ¬ 1 < n) :
    proofModeOf n = some (if n = 0 then .stopFirst else .continuous) := by
  match n with
  | 0 => rfl
  | 1 => rfl
  | _ + 2 => omega

/-- Settles O53. -/
theorem proofsStartAndStopOnRequest : Obligations.ProofsStartAndStopOnRequest := by
  refine ⟨fun s q posed => ?_, fun s q posed => ?_⟩
  · intro t x mode rounds d u first record started
    rw [exec_posed (c := .startProof .operations) rfl posed]
    unfold Device.startRequest
    simp only [Device.tunnel_taken, Device.proofs_taken]
    by_cases unknown : 1 < mode
    · have none_ : proofModeOf (q.num 0 1) = none := proofModeOf_big unknown
      rw [none_, if_pos (.inl unknown)]
      rfl
    · have known : proofModeOf (q.num 0 1) = some (if mode = 0 then .stopFirst else .continuous) :=
        proofModeOf_small unknown
      have first_mode : (if mode = 0 then ProofMode.stopFirst else .continuous) = .stopFirst ↔ mode = 0 := by
        by_cases h : mode = 0 <;> simp [h]
      rw [known]
      simp only [Device.conclude_ite, State.to_ite, first_mode]
      refine ite_congr_iff ?_ rfl (ite_congr_iff ?_ rfl (ite_congr_iff ?_ rfl (ite_congr_iff ?_ rfl ?_)))
      · rw [or_iff_right unknown]
      · rw [Option.isSome_iff_ne_none]
      · rw [OutCauses.isEmpty_iff, Classical.not_and_iff_not_or_not]
      · rw [Device.opsQueueOpen_iff, Device.operationsNotices_taken, Nat.not_lt]
      · rw [Device.conclude_answer]
        refine congrArg (fun e : Device => s.to (e.respond .operations q ⟨.done, .none, .empty⟩).finish) ?_
        unfold Device.startProof
        rw [Device.proofs_taken, ProofUnit.activeFrom_zero]
  · intro d
    rw [exec_posed (c := .stopProof .operations) rfl posed]
    unfold Device.stopRequest
    rw [Device.proofs_taken]
    cases s.dev.proofs.running with
    | none => rfl
    | some r => cases purpose : r.purpose <;> simp only [Option.map_some, purpose] <;> rfl

/-! ### Ends -/

theorem countsAsFailed_iff (result : ProofResult) (cause : Option AbortCause) :
    countsAsFailed result cause = true ↔ result = .missed
      ∨ (result = .aborted ∧ (cause = some .keyUnusable ∨ cause = some .notInService ∨ cause = some .outboundCause)) := by
  obtain _ | cause := cause
  · cases result <;> simp [countsAsFailed]
  · cases result <;> cases cause <;> simp [countsAsFailed]

/-- Settles O54. -/
theorem proofsEndInOrder : Obligations.ProofsEndInOrder := by
  intro d r result cause running t misses last failed p e e' x e''
  have fails : countsAsFailed result cause = true ↔ failed := countsAsFailed_iff result cause
  have profile : e.profileOf t = p := Device.profileOf_modTunnel _ t _ rfl t
  have taken : (if r.purpose = .retry then e.retryResult t result cause else e) = e' := by
    unfold Device.retryResult
    cases purpose : r.purpose with
    | operations => exact (if_pos purpose).symm
    | retry =>
      refine (if_pos rfl).trans (Eq.trans ?_ (if_neg (by rw [purpose]; decide)).symm)
      refine ite_congr_iff Iff.rfl rfl ?_
      rw [ite_not]
      refine ite_congr_iff fails ?_ rfl
      simp only [profile]
      rfl
  have fault : ∀ g : Device, (g.tunnel t).state = x.state → (g.tunnel t).retryCount = x.retryCount →
      g.proofFault r result cause =
        if r.purpose = .operations ∧ result = .missed then g.latchTunnel t .proofFailed misses false
        else if r.purpose = .retry ∧ failed ∧ x.state = .failed then g.latchTunnel t .tunnelFailed x.retryCount false
        else g := by
    intro g state count
    unfold Device.proofFault
    rw [show (g.tunnel r.tunnel).state = x.state from state, show (g.tunnel r.tunnel).retryCount = x.retryCount from count]
    cases purpose : r.purpose with
    | operations => simp [t, misses]
    | retry => simp [← fails, t]
  unfold Device.endProof
  simp only [running]
  rw [show (if r.purpose = .retry then Device.retryResult _ r.tunnel result cause else _) = e' from taken]
  have kept : e'.clock = d.clock ∧ e'.proofs.capture = d.proofs.capture := by
    simp only [e']
    split
    · exact ⟨rfl, rfl⟩
    · split
      · exact ⟨rfl, rfl⟩
      · split <;> exact ⟨rfl, rfl⟩
  rw [kept.1, kept.2]
  exact congrArg Device.retryStartTest (fault e'' rfl rfl)

/-! ### Patterns -/

theorem Pattern.not_ok_iff (p : Pattern) : ¬ p.ok = true ↔
    ¬ (p.length = 0 ∨ (16 ≤ p.length ∧ p.length ≤ 1472)) ∨ 255 < p.seed ∨ 255 < p.step := by
  simp only [Pattern.ok, within, Bool.and_eq_true, Bool.or_eq_true, decide_eq_true_eq]
  omega

theorem not_anyActive_iff (ps : List Pattern) : ¬ anyActive ps = true ↔ ∀ p ∈ ps, p.length = 0 := by
  simp [anyActive]

/-- Settles O57. -/
theorem patternsAreWrittenBetweenProofs : Obligations.PatternsAreWrittenBetweenProofs := by
  intro s q posed k length seed step d table
  rw [exec_posed (c := .writePattern .operations) rfl posed]
  unfold Device.writePattern
  simp only [Device.conclude_ite, State.to_ite, Device.proofs_taken]
  refine ite_congr_iff ?_ rfl (ite_congr_iff ?_ rfl rfl)
  · rw [Pattern.not_ok_iff, not_anyActive_iff]
    simp only [or_assoc]
    rfl
  · rw [Option.isSome_iff_ne_none]

/-! ### Misses and advances -/

/-- The place at which two payloads first differ, from offset 4 on (R147). -/
theorem firstDiff_spec (sent echo : List Byte) :
    let shorter := min sent.length echo.length
    let o := firstDiff sent echo
    (∀ i, 4 ≤ i → i < o → i < shorter ∧ sent[i]? = echo[i]?) ∧ (4 ≤ shorter → 4 ≤ o ∧ o ≤ shorter)
      ∧ (o < shorter → sent[o]? ≠ echo[o]?) := by
  intro shorter o
  have at_ : ∀ i, i < shorter → (sent[i]? = echo[i]? ↔ sent.getD i 0 = echo.getD i 0) := by
    intro i below
    have inside : i < sent.length := Nat.lt_of_lt_of_le below (Nat.min_le_left ..)
    have inside' : i < echo.length := Nat.lt_of_lt_of_le below (Nat.min_le_right ..)
    rw [List.getElem?_eq_getElem inside, List.getElem?_eq_getElem inside', getD_of_lt _ _ inside,
      getD_of_lt _ _ inside', Option.some_inj]
  cases found : (List.range shorter).find? fun i =>
      decide (4 ≤ i) && decide (sent.getD i 0 ≠ echo.getD i 0) with
  | none =>
    have is : o = shorter := congrArg (Option.getD · shorter) found
    rw [List.find?_range_eq_none] at found
    refine ⟨fun i low below => ⟨is ▸ below, ?_⟩, fun long => ⟨is ▸ long, Nat.le_of_eq is⟩,
      fun below => absurd is (Nat.ne_of_lt below)⟩
    have here : i < shorter := is ▸ below
    rw [at_ i here]
    simpa [low] using found i here
  | some j =>
    have is : o = j := congrArg (Option.getD · shorter) found
    rw [List.find?_range_eq_some] at found
    obtain ⟨differs, below, least⟩ := found
    rw [Bool.and_eq_true, decide_eq_true_eq, decide_eq_true_eq] at differs
    have here : j < shorter := List.mem_range.mp below
    rw [is]
    refine ⟨fun i low before => ⟨Nat.lt_trans before here, ?_⟩, fun _ => ⟨differs.1, Nat.le_of_lt here⟩,
      fun _ same => differs.2 ((at_ j here).mp same)⟩
    rw [at_ i (Nat.lt_trans before here)]
    simpa [low] using least i before

/-- The lowest active entry at or above an index (R143, R148). -/
theorem ProofUnit.activeFrom_spec (u : ProofUnit) (n : Nat) :
    let active (k : Nat) := k < 8 ∧ (u.patterns.getD k ⟨0, 0, 0⟩).length ≠ 0
    (∀ k, active k → n ≤ k → (∀ j, n ≤ j → j < k → ¬ active j) → u.activeFrom n = some k)
      ∧ ((∀ k, n ≤ k → ¬ active k) → u.activeFrom n = none) := by
  intro active
  unfold ProofUnit.activeFrom
  refine ⟨fun k is above least => ?_, fun none_ => ?_⟩
  · rw [List.find?_range_eq_some]
    refine ⟨?_, List.mem_range.mpr is.1, fun j before => ?_⟩
    · rw [decide_eq_true above, Bool.true_and]
      exact decide_eq_true is.2
    · by_cases low : n ≤ j
      · have zero : ¬ (u.pattern j).length ≠ 0 := fun h => least j low before ⟨Nat.lt_trans before is.1, h⟩
        rw [decide_eq_false zero, Bool.and_false]
        rfl
      · rw [decide_eq_false low, Bool.false_and]
        rfl
  · rw [List.find?_range_eq_none]
    intro j inside
    by_cases low : n ≤ j
    · have zero : ¬ (u.pattern j).length ≠ 0 := fun h => none_ j low ⟨inside, h⟩
      rw [decide_eq_false zero, Bool.and_false]
      rfl
    · rw [decide_eq_false low, Bool.false_and]
      rfl

/-- A miss of a STOP_FIRST proof ends it, with its capture record (R147). -/
theorem Device.proofMiss_stopFirst {r : ProofRecord} (mode : r.mode = .stopFirst) (d : Device) (serial : BitVec 32)
    (kind : MissKind) (echo : Option (List Byte)) :
    let e := (d.setProof (some { r with misses := r.misses.modify r.entry fun n => min (n + 1) 65535 })).give
      .proofMisses (some r.tunnel)
    let c := captureOf r serial kind (proofPayload (d.proofs.pattern r.entry) serial) echo
    d.proofMiss r serial kind echo = { e with proofs := { e.proofs with capture := some c } }.endProof .missed none := by
  unfold Device.proofMiss
  simp only [mode]
  rfl

/-- A CONTINUOUS proof advances after a miss (R148). -/
theorem Device.proofMiss_continuous {r : ProofRecord} (mode : r.mode = .continuous) (d : Device) (serial : BitVec 32)
    (kind : MissKind) (echo : Option (List Byte)) :
    d.proofMiss r serial kind echo =
      ((d.setProof (some { r with misses := r.misses.modify r.entry fun n => min (n + 1) 65535 })).give
        .proofMisses (some r.tunnel)).advanceProof := by
  unfold Device.proofMiss
  simp only [mode]
  rfl

/-- Settles O52. -/
theorem proofDeadlinesExpire : Obligations.ProofDeadlinesExpire := by
  intro s t
  refine ⟨fun due => ?_, fun no => ?_, fun r serial running waits => ?_, fun no => ?_,
    fun d r serial echo running => ?_, fun d r running => ?_⟩
  · show s.to (s.dev.holdExpires t) = _
    unfold Device.holdExpires
    rw [if_pos ((s.dev.due_iff _).mpr due)]
    rfl
  · show s.to (s.dev.holdExpires t) = _
    unfold Device.holdExpires
    rw [if_neg fun due => no ((s.dev.due_iff _).mp due)]
    rfl
  · intro missed d capture
    show s.to s.dev.echoExpires = _
    unfold Device.echoExpires
    simp only [running, waits]
    rw [if_pos ((s.dev.due_iff _).mpr rfl)]
    split
    next mode =>
      rw [Device.proofMiss_stopFirst mode]
      rfl
    next mode => rw [Device.proofMiss_continuous mode]
  · show s.to s.dev.echoExpires = _
    unfold Device.echoExpires
    split
    · rename_i r running
      split
      · rename_i serial at_ waits
        rw [if_neg fun due => ?_]
        · rfl
        · have is : at_ = s.dev.clock := Option.some.inj ((s.dev.due_iff _).mp due)
          exact no r serial running (is ▸ waits)
      · rfl
      · rfl
    · rfl
  · intro sent shorter missed e
    obtain ⟨same, range, differs⟩ := firstDiff_spec sent echo
    refine ⟨firstDiff sent echo, same, range, differs, ?_⟩
    split
    next mode => exact Device.proofMiss_stopFirst mode ..
    next mode => exact Device.proofMiss_continuous mode ..
  · intro active wait
    obtain ⟨found, none_⟩ := d.proofs.activeFrom_spec (r.entry + 1)
    obtain ⟨first, -⟩ := d.proofs.activeFrom_spec 0
    unfold Device.advanceProof Device.waitFor
    simp only [running]
    refine ⟨fun k is above least => ?_, fun last => ⟨fun asked done => ?_, fun more k is least => ?_⟩⟩
    · rw [found k is above least]
    · rw [none_ last]
      have clean : r.misses.all (· == 0) = true ↔ ∀ n ∈ r.misses, n = 0 := by simp
      exact (if_pos ⟨asked, done⟩).trans (congrArg (fun x => Device.endProof _ x none) (ite_congr_iff clean rfl rfl))
    · rw [none_ last, first k is (Nat.zero_le k) fun j _ => least j]
      exact if_neg fun h => more.elim (fun zero => h.1 zero) fun other => other h.2

end Sys2Proof.Machine
end

/-! PROOF. The monitor bank and the clock: a monitor's program, what advances, and the deadlines of a clock value (R159,
R160, R162, R163, R164, R165, R166, R185). -/
section

namespace Sys2Proof.Machine

/-! ### What advances -/

/-- The bank after the monitors that a test names have advanced (R160, R162, R166). -/
def Bank.counted (b : Bank) (hit : Monitor → Bool) : Bank :=
  { b with
    monitors := b.monitors.map fun m =>
      if hit m then { m with counter := m.counter + 1, overflow := m.overflow || decide (m.counter = BitVec.allOnes 40) }
      else m
    freezeDue := b.freezeDue || b.monitors.any fun m => hit m && decide (m.counter = BitVec.allOnes 40) && m.freeze }

theorem Bank.advanceWhere_eq (b : Bank) (hit : Monitor → Bool) :
    b.advanceWhere hit = if b.state = .counting then b.counted hit else b := by
  unfold Bank.advanceWhere
  split
  next counting => exact (if_pos counting).symm
  next frozen => rw [if_neg (by rw [frozen]; exact fun h => nomatch h)]

theorem Device.give_eq (d : Device) (e : EventSource) (carried : Option Nat) :
    let passes (f : Filter) : Bool := match f with
      | .all => true
      | .one t => decide (carried = some t)
      | .profile n => carried.any fun t => decide ((d.tunnel t).state ≠ .empty ∧ (d.tunnel t).profile = some n)
    d.give e carried =
      if d.bank.state = .counting then
        { d with bank := d.bank.counted fun m => decide (m.source = .event e) && passes m.filter }
      else d := by
  intro passes
  have same : ∀ f, d.passes f carried = passes f := by
    intro f
    cases f <;> cases carried <;> simp [Device.passes, passes, eq_comm]
  unfold Device.give
  simp only [Bank.advanceWhere_eq, same]
  split <;> rfl

theorem Device.countMicrosecond_eq (d : Device) :
    let lasts (m : Monitor) : Bool := decide (m.mode = .duration) && d.conditionHolds m
    d.countMicrosecond = { d with bank :=
      if d.bank.state = .counting then { d.bank.counted lasts with elapsed := d.bank.elapsed + 1 } else d.bank } := by
  intro lasts
  unfold Device.countMicrosecond
  split
  next counting =>
    rw [if_pos counting, Bank.advanceWhere_eq, if_pos counting]
    rfl
  next frozen => rw [if_neg (by rw [frozen]; exact fun h => nomatch h)]

/-! ### The deadlines of the clock's value -/

theorem insertDue_perm (draw : Nat) (x : Due) (ys : List Due) : (insertDue draw x ys).Perm (x :: ys) := by
  induction ys with
  | nil => exact .refl _
  | cons y ys ih =>
    unfold insertDue
    split
    · exact .refl _
    · exact (ih.cons y).trans (.swap x y ys)

theorem sortDue_perm (draw : Nat) (xs : List Due) : (sortDue draw xs).Perm xs := by
  induction xs with
  | nil => exact .refl _
  | cons x xs ih => exact (insertDue_perm draw x _).trans (ih.cons x)

/-- The expiries of the deadlines that have come, in some order (R185; log 7). -/
theorem Device.expireDue_eq (d : Device) :
    (d.dueNow = [] → d.expireDue = d)
      ∧ (d.dueNow ≠ [] → ∃ order : List Due, order.Perm d.dueNow
        ∧ d.expireDue = order.foldl Device.expire { d with draws := d.draws + 1 }) := by
  unfold Device.expireDue
  refine ⟨fun none_ => by rw [none_], fun some_ => ⟨sortDue d.draws d.dueNow, sortDue_perm _ _, ?_⟩⟩
  split
  next none_ => exact absurd none_ some_
  next => rfl

theorem mem_ite_singleton {c : Bool} {x y : Due} : (x ∈ if c = true then [y] else []) ↔ x = y ∧ c = true := by
  cases c <;> simp

theorem Device.mem_dueOf (d : Device) (t : Nat) (x : Due) :
    x ∈ d.dueOf t ↔ match x with
      | .grace u => u = t ∧ d.due ((d.tunnel t).previous.bind (·.graceDeadline)) = true
      | .softAge u => u = t ∧ d.due ((d.tunnel t).current.bind (·.key.softDeadline)) = true
      | .hardAge u => u = t ∧ d.due ((d.tunnel t).current.bind (·.key.hardDeadline)) = true
      | .interval u => u = t ∧ d.due (d.tunnel t).condition.intervalDeadline = true
      | .silence u => u = t ∧ d.due (d.tunnel t).condition.silenceDeadline = true
      | .keepalive u => u = t ∧ d.due (d.tunnel t).condition.keepaliveDeadline = true
      | .hold u => u = t ∧ d.due (d.tunnel t).holdDeadline = true
      | .echo => False := by
  unfold Device.dueOf
  simp only [List.mem_append, mem_ite_singleton]
  cases x <;> simp

theorem Device.nodup_dueOf (d : Device) (t : Nat) : (d.dueOf t).Nodup := by
  have part : ∀ (c : Bool) (x : Due), (if c = true then [x] else []).Sublist [x] := by
    intro c x
    cases c <;> simp
  have all : [Due.grace t, .softAge t, .hardAge t, .interval t, .silence t, .keepalive t, .hold t].Nodup := by simp
  unfold Device.dueOf
  exact ((((((part _ _).append (part _ _)).append (part _ _)).append (part _ _)).append (part _ _)).append
    (part _ _)).append (part _ _) |>.nodup all

theorem Device.mem_dueEcho (d : Device) (x : Due) :
    x ∈ d.dueEcho ↔ x = .echo ∧ ∃ r serial, d.proofs.running = some r ∧ r.phase = .awaitEcho serial d.clock := by
  unfold Device.dueEcho
  cases running : d.proofs.running with
  | none => simp
  | some r =>
    cases phase : r.phase with
    | awaitEcho serial at_ =>
      simp only [phase, Option.some.injEq]
      refine mem_ite_singleton.trans (and_congr_right fun _ => ?_)
      rw [Device.due_iff, Option.some.injEq]
      constructor
      · rintro rfl
        exact ⟨r, serial, rfl, phase⟩
      · rintro ⟨_, _, rfl, same⟩
        rw [phase] at same
        injection same
    | waitCell => simp [phase]
    | inFlight _ => simp [phase]

theorem Device.nodup_dueNow (d : Device) : d.dueNow.Nodup := by
  have echo : d.dueEcho.Nodup := by
    unfold Device.dueEcho
    split
    · split
      · split <;> simp
      · exact List.nodup_nil
      · exact List.nodup_nil
    · exact List.nodup_nil
  refine List.nodup_append.mpr ⟨List.pairwise_flatMap.mpr ⟨fun t _ => d.nodup_dueOf t, ?_⟩, echo, ?_⟩
  · refine List.nodup_range.imp fun {t u} other x inT y inU same => other ?_
    rw [← same] at inU
    rw [Device.mem_dueOf] at inT inU
    cases x with
    | echo => exact inT.elim
    | _ => exact inT.1.symm.trans inU.1
  · rintro x inTunnels _ inEcho rfl
    obtain ⟨t, -, mem⟩ := List.mem_flatMap.mp inTunnels
    rw [((d.mem_dueEcho x).mp inEcho).1, Device.mem_dueOf] at mem
    exact mem

theorem Device.mem_dueNow (d : Device) (x : Due) :
    x ∈ d.dueNow ↔ (∃ t < 480, x ∈ d.dueOf t) ∨ x ∈ d.dueEcho := by
  unfold Device.dueNow
  simp only [List.mem_append, List.mem_flatMap, List.mem_range, Config.tunnelCount]

/-- A test on the deadline that a tunnel number carries holds of just that tunnel. -/
theorem exists_tunnel_iff {u : Nat} {p : Nat → Prop} : (∃ t < 480, u = t ∧ p t) ↔ u < 480 ∧ p u :=
  ⟨fun ⟨_, bound, same, holds⟩ => same ▸ ⟨bound, holds⟩, fun ⟨bound, holds⟩ => ⟨u, bound, rfl, holds⟩⟩

/-- The deadlines of the clock's value are those of the 480 tunnels and of the echo awaited that equal it (R185). -/
theorem Device.mem_dueNow_iff (d : Device) (x : Due) :
    let present : Prop := match x with
      | .grace t => t < 480 ∧ ∃ k, (d.tunnel t).previous = some k ∧ k.graceDeadline = some d.clock
      | .softAge t => t < 480 ∧ ∃ c, (d.tunnel t).current = some c ∧ c.key.softDeadline = some d.clock
      | .hardAge t => t < 480 ∧ ∃ c, (d.tunnel t).current = some c ∧ c.key.hardDeadline = some d.clock
      | .interval t => t < 480 ∧ (d.tunnel t).condition.intervalDeadline = some d.clock
      | .silence t => t < 480 ∧ (d.tunnel t).condition.silenceDeadline = some d.clock
      | .keepalive t => t < 480 ∧ (d.tunnel t).condition.keepaliveDeadline = some d.clock
      | .hold t => t < 480 ∧ (d.tunnel t).holdDeadline = some d.clock
      | .echo => ∃ r serial, d.proofs.running = some r ∧ r.phase = .awaitEcho serial d.clock
    x ∈ d.dueNow ↔ present := by
  simp only [Device.mem_dueNow, Device.mem_dueEcho, Device.mem_dueOf]
  cases x <;> simp only [exists_tunnel_iff, Device.due_iff, Option.bind_eq_some_iff, reduceCtorEq, false_and, or_false,
    and_false, exists_false, true_and, false_or]

/-! ### The end of an event -/

/-- The freeze that is due is made (R166). -/
def Device.frozen (d : Device) : Device :=
  if d.bank.freezeDue then
    { d with bank := { d.bank with state := .frozen .overflow, freezeDue := false } }.deviceFault .monitorOverflow 0
  else d

theorem Device.freezeOnOverflow_eq (d : Device) : d.freezeOnOverflow = d.frozen := rfl

theorem Device.level_eq (d : Device) (l : LevelSource) :
    d.level l = match l with
      | .settleOccupancy => d.engine.settle.length
      | .bulkOccupancy => d.engine.bulk.length
      | .freeCells => d.store.freeCount
      | .freeKeyEntries => 1024 - d.keys.entries.countP fun e => decide (e.2 ≠ .free)
      | .engineBusy => if d.engine.inWork.isSome then 1 else 0 := by
  cases l <;> rfl

theorem Device.conditionHolds_eq (d : Device) (m : Monitor) :
    d.conditionHolds m = match m.source with
      | .level l => match m.compare with
        | .atOrAbove => decide (m.threshold ≤ d.level l)
        | .below => decide (d.level l < m.threshold)
      | _ => false := by
  unfold Device.conditionHolds
  cases m.source with
  | level l => cases m.compare <;> rfl
  | _ => rfl

theorem Device.judgeEdges_eq (d : Device) :
    let bank : Bank :=
      if d.bank.state = .counting then
        d.bank.counted fun m => decide (m.mode = .edge) && decide (m.held = some false) && d.conditionHolds m
      else d.bank
    d.judgeEdges = { d with bank := { bank with
      monitors := bank.monitors.map fun m =>
        if m.mode = .edge then { m with held := some (d.conditionHolds m) } else m } } := by
  intro bank
  unfold Device.judgeEdges
  rw [Bank.advanceWhere_eq]

/-- A clock advance: the bank's microsecond, the clock, the freeze that is due, then the expiries (R160, R163, R185). -/
theorem Device.advanceClock_eq (d : Device) :
    let lasts (m : Monitor) : Bool := decide (m.mode = .duration) && d.conditionHolds m
    let bank : Bank :=
      if d.bank.state = .counting then { d.bank.counted lasts with elapsed := d.bank.elapsed + 1 } else d.bank
    d.advanceClock = ({ d with bank := bank, clock := d.clock + 1 } : Device).frozen.expireDue := by
  intro lasts bank
  unfold Device.advanceClock
  rw [Device.countMicrosecond_eq]
  rfl

theorem exec_expiry (s : State) (x : Due) :
    let command : Instr := match x with
      | .grace t => .graceExpiry t
      | .softAge t => .softAgeExpiry t
      | .hardAge t => .hardAgeExpiry t
      | .interval t => .intervalExpiry t
      | .silence t => .silenceExpiry t
      | .keepalive t => .keepaliveExpiry t
      | .hold t => .holdExpiry t
      | .echo => .echoDeadlineExpiry
    exec command s = s.to (s.dev.expire x) := by
  cases x <;> rfl

theorem exec_clockAdvance (s : State) : exec .deviceClockAdvance s = s.to s.dev.advanceClock := by
  unfold State.to
  rfl

/-- Settles O60. -/
theorem theClockAndTheBankCount : Obligations.TheClockAndTheBankCount := by
  unfold Obligations.TheClockAndTheBankCount
  intro counted frozen
  refine ⟨?_, fun d e carried => d.give_eq e carried, fun d => d.freezeOnOverflow_eq, ?_,
    fun d => ⟨d.nodup_dueNow, d.mem_dueNow_iff⟩, exec_expiry⟩
  · intro s d lasts bank advanced
    have exec_eq : exec .deviceClockAdvance s = s.to advanced.expireDue :=
      (exec_clockAdvance s).trans (congrArg s.to s.dev.advanceClock_eq)
    obtain ⟨none_, some_⟩ := advanced.expireDue_eq
    refine ⟨fun h => exec_eq.trans (congrArg s.to (none_ h)), fun h => ?_⟩
    obtain ⟨order, perm, same⟩ := some_ h
    exact ⟨order, perm, exec_eq.trans (congrArg s.to same)⟩
  · intro d level holds bank
    have level_eq : d.level = level := funext d.level_eq
    have holds_eq : ∀ m, d.conditionHolds m = holds m := by
      intro m
      rw [d.conditionHolds_eq, level_eq] <;> rfl
    refine ⟨holds_eq, ?_⟩
    have judged := d.judgeEdges_eq
    simp only [holds_eq] at judged
    exact congrArg Device.frozen judged

end Sys2Proof.Machine
end

/-! PROOF. SET_MONITOR: the program its operands name, its refusals and its acceptance (R159, R165). -/
section

namespace Sys2Proof.Machine

theorem sourceOf_eq (n : Nat) :
    sourceOf n = ([.none, .event .framesSent, .event .framesAccepted, .event .authFail, .event .replay,
      .event .epochMiss, .event .malformed, .event .dialoguesDropped, .event .keepalivesSent,
      .event .keepalivesSkipped, .event .promotions, .event .follows, .event .earlyRetires, .event .derivations,
      .event .claimsRefused, .event .settleFirstEntries, .event .bulkRescueEntries, .event .faultsLatched,
      .event .proofMisses, .event .strayEchoes, .level .settleOccupancy, .level .bulkOccupancy, .level .freeCells,
      .level .freeKeyEntries, .level .engineBusy] : List Source)[n]? := by
  by_cases small : n < 25
  · revert n
    decide
  · unfold sourceOf
    rw [if_neg (by omega), if_neg (by omega), List.getElem?_eq_none (l := LevelSource.all)
      (show LevelSource.all.length ≤ n - 20 from Nat.le_sub_of_add_le (Nat.not_lt.mp small)),
      List.getElem?_eq_none (by simpa using small)]
    rfl

theorem filterOf_eq (number : Nat) : ∀ kind, filterOf kind number = [.all, .one number, .profile number][kind]?
  | 0 => rfl
  | 1 => rfl
  | 2 => rfl
  | _ + 3 => rfl

theorem countModeOf_eq : ∀ n, countModeOf n = [.count, .duration, .edge][n]?
  | 0 => rfl
  | 1 => rfl
  | 2 => rfl
  | _ + 3 => rfl

theorem compareOf_eq : ∀ n, compareOf n = [.atOrAbove, .below][n]?
  | 0 => rfl
  | 1 => rfl
  | _ + 2 => rfl

theorem switchOf_eq : ∀ n, switchOf n = [false, true][n]?
  | 0 => rfl
  | 1 => rfl
  | _ + 2 => rfl

/-- The operands of a SET_MONITOR name the values of a program (R165). -/
structure Request.Names (q : Request) (m : Monitor) : Prop where
  source : sourceOf (q.num 1 1) = some m.source
  filter : filterOf (q.num 2 1) (q.num 3 2) = some m.filter
  mode : countModeOf (q.num 5 1) = some m.mode
  compare : compareOf (q.num 6 1) = some m.compare
  threshold : m.threshold = q.num 7 2
  freeze : switchOf (q.num 9 1) = some m.freeze

theorem Request.program_of_names {q : Request} {m : Monitor} (h : q.Names m) :
    q.program = some { m with counter := BitVec.ofNat 40 (q.num 10 6), overflow := false, held := none } := by
  unfold Request.program
  simp only [h.source, h.filter, h.mode, h.compare, h.freeze, ← h.threshold]

theorem Request.program_none {q : Request} (h : ∀ m, ¬ q.Names m) : q.program = none := by
  unfold Request.program
  split
  next source filter mode compare freeze is1 is2 is3 is4 is5 =>
    exact (h ⟨0, false, source, filter, mode, compare, q.num 7 2, freeze, none⟩ ⟨is1, is2, is3, is4, rfl, is5⟩).elim
  next => rfl

/-- A source whose filter must be ALL: a level, no source, or an event that carries no tunnel (R165). -/
def Source.CarriesNone : Source → Prop
  | .event .claimsRefused | .event .settleFirstEntries | .event .bulkRescueEntries | .level _ | .none => True
  | _ => False

theorem filterRefusal_noTunnel {x : Source} {t : Nat} (h : 480 ≤ t) : filterRefusal x (.one t) = some .noTunnel := by
  unfold filterRefusal
  simp only [if_pos (show Config.tunnelCount ≤ t from h)]

theorem filterRefusal_noProfile {x : Source} {n : Nat} (h : 7 < n) :
    filterRefusal x (.profile n) = some .badRequest := by
  unfold filterRefusal
  simp only [if_pos h]

/-- A filter whose number exists is refused just where the source carries no tunnel and the filter is not ALL. -/
theorem filterRefusal_known {x : Source} {f : Filter} (tunnel : ∀ t, f = .one t → t < 480)
    (profile : ∀ n, f = .profile n → n ≤ 7) [Decidable x.CarriesNone] :
    filterRefusal x f = if x.CarriesNone ∧ f ≠ .all then some .badRequest else none := by
  have only : (match x with | .event e => e.tunnelless | .level _ | .none => true) = true ↔ x.CarriesNone := by
    cases x with
    | event e => cases e <;> simp [Source.CarriesNone, EventSource.tunnelless]
    | level l => simp [Source.CarriesNone]
    | none => simp [Source.CarriesNone]
  unfold filterRefusal
  cases f with
  | all => exact ite_congr_iff (and_congr_left' only) rfl rfl
  | one t =>
    simp only [if_neg (Nat.not_le.mpr (show t < Config.tunnelCount from tunnel t rfl))]
    exact ite_congr_iff (and_congr_left' only) rfl rfl
  | profile n =>
    simp only [if_neg (Nat.not_lt.mpr (profile n rfl))]
    exact ite_congr_iff (and_congr_left' only) rfl rfl

theorem filterRefusal_carriesNone {x : Source} {f : Filter} (tunnel : ∀ t, f = .one t → t < 480)
    (none_ : x.CarriesNone) (some_ : f ≠ .all) : filterRefusal x f = some .badRequest := by
  classical
  by_cases high : ∃ n, f = .profile n ∧ 7 < n
  · obtain ⟨n, rfl, high⟩ := high
    exact filterRefusal_noProfile high
  · rw [filterRefusal_known tunnel (fun n is => Nat.not_lt.mp fun h => high ⟨n, is, h⟩), if_pos ⟨none_, some_⟩]

theorem filterRefusal_none {x : Source} {f : Filter} (tunnel : ∀ t, f = .one t → t < 480)
    (profile : ∀ n, f = .profile n → n ≤ 7) (all : x.CarriesNone → f = .all) : filterRefusal x f = none := by
  classical
  rw [filterRefusal_known tunnel profile, if_neg fun h => h.2 (all h.1)]

/-- A filter refused where its tunnel exists is refused as a bad request. -/
theorem filterRefusal_of_tunnel {x : Source} {f : Filter} (tunnel : ∀ t, f = .one t → t < 480) :
    filterRefusal x f = none ∨ filterRefusal x f = some .badRequest := by
  classical
  by_cases high : ∃ n, f = .profile n ∧ 7 < n
  · obtain ⟨n, rfl, high⟩ := high
    exact .inr (filterRefusal_noProfile high)
  · rw [filterRefusal_known tunnel fun n is => Nat.not_lt.mp fun h => high ⟨n, is, h⟩]
    split
    · exact .inr rfl
    · exact .inl rfl

/-- The mode, the compare and the threshold fit the source (R165). -/
def Monitor.Fits (m : Monitor) : Prop :=
  match m.source with
  | .level l => m.mode ≠ .count ∧ m.threshold ≤ (match l with
      | .settleOccupancy => 384
      | .bulkOccupancy => 576
      | .freeCells => 2048
      | .freeKeyEntries => 1024
      | .engineBusy => 1) + 1
  | _ => m.mode = .count ∧ m.compare = .atOrAbove ∧ m.threshold = 0

theorem programFits_iff (m : Monitor) : programFits m.source m.mode m.compare m.threshold = true ↔ m.Fits := by
  unfold programFits Monitor.Fits
  cases m.source with
  | level l =>
    rw [Bool.and_eq_true, decide_eq_true_iff, decide_eq_true_iff]
    cases l <;> rfl
  | event e => simp [and_assoc]
  | none => simp [and_assoc]

section
variable {d : Device} {q : Request} {m : Monitor}

theorem Device.setMonitor_unnamed (h : ∀ m, ¬ q.Names m) : d.setMonitor q = .refuse .badRequest := by
  unfold Device.setMonitor
  rw [Request.program_none h]

theorem Device.setMonitor_named (h : q.Names m) :
    d.setMonitor q =
      if 12 ≤ q.num 0 1 ∨ 2 ^ 40 ≤ q.num 10 6 then .refuse .badRequest
      else match filterRefusal m.source m.filter with
        | some st => .refuse st
        | none =>
          if ¬ programFits m.source m.mode m.compare m.threshold then .refuse .badRequest
          else
            let old := d.bank.monitors.getD (q.num 0 1) Monitor.initial
            let set := { m with
              counter := BitVec.ofNat 40 (q.num 10 6), overflow := false
              held := if m.mode = .edge then some (d.conditionHolds m) else none }
            .quiet { d with bank := { d.bank with monitors := d.bank.monitors.set (q.num 0 1) set } }
              (.done (.replaced old.counter old.overflow)) := by
  unfold Device.setMonitor
  simp only [Request.program_of_names h]
  rfl

end

/-- Settles O58. -/
theorem monitorsTakeTheirProgram : Obligations.MonitorsTakeTheirProgram := by
  intro s q posed d refused sources filters names
  have exec_eq := exec_posed (c := .setMonitor .operations) rfl posed
  have refuses : ∀ st, d.setMonitor q = .refuse st → refused st := by
    intro st is
    refine exec_eq.trans ?_
    rw [show (s.dev.taken .operations 27).setMonitor q = _ from is]
    rfl
  have named : ∀ m, names m → q.Names m := fun m ⟨is1, is2, is3, is4, is5, is6⟩ =>
    ⟨(sourceOf_eq _).trans is1, (filterOf_eq ..).trans is2, (countModeOf_eq _).trans is3, (compareOf_eq _).trans is4,
      is5, (switchOf_eq _).trans is6⟩
  have unnamed : ∀ m, q.Names m → names m := fun m h =>
    ⟨(sourceOf_eq _).symm.trans h.source, (filterOf_eq ..).symm.trans h.filter, (countModeOf_eq _).symm.trans h.mode,
      (compareOf_eq _).symm.trans h.compare, h.threshold, (switchOf_eq _).symm.trans h.freeze⟩
  refine ⟨fun none_ => refuses _ (Device.setMonitor_unnamed fun m h => none_ m (unnamed m h)), fun m is => ?_⟩
  intro carriesNone fits inRange
  have own := Device.setMonitor_named (d := d) (named m is)
  have outside : ¬ inRange → 12 ≤ q.num 0 1 ∨ 2 ^ 40 ≤ q.num 10 6 := by
    intro out
    simp only [inRange] at out
    omega
  have inside : inRange → ¬ (12 ≤ q.num 0 1 ∨ 2 ^ 40 ≤ q.num 10 6) := by
    intro in_
    simp only [inRange] at in_
    omega
  refine ⟨fun out => refuses _ ?_, fun in_ ⟨t, one, high⟩ => refuses _ ?_, fun in_ ⟨n, one, high⟩ => refuses _ ?_,
    fun in_ tunnel none_ some_ => refuses _ ?_, fun in_ tunnel unfit => refuses _ ?_,
    fun in_ tunnel profile all fit => ?_⟩
  · rw [own, if_pos (outside out)]
  · rw [own, if_neg (inside in_), one, filterRefusal_noTunnel high]
  · rw [own, if_neg (inside in_), one, filterRefusal_noProfile high]
  · rw [own, if_neg (inside in_), filterRefusal_carriesNone tunnel none_ some_]
  · rw [own, if_neg (inside in_)]
    obtain clear | bad := filterRefusal_of_tunnel (x := m.source) tunnel
    · rw [clear]
      exact if_pos fun h => unfit ((programFits_iff m).mp h)
    · rw [bad]
  · intro old set
    rw [if_neg (inside in_), filterRefusal_none tunnel profile all] at own
    refine exec_eq.trans ?_
    rw [show (s.dev.taken .operations 27).setMonitor q = _ from
      own.trans (if_neg (not_not_intro ((programFits_iff m).mpr fit)))]
    rfl

end Sys2Proof.Machine
end

/-! PROOF. The condition timers, and what the fault and proof operations keep of the profiles (R20, R122, R124, R125,
R126). -/
section

namespace Sys2Proof.Machine

/-! ### The profile of a tunnel -/

/-- The profiles stand, and every tunnel keeps the profile it is bound to. -/
structure SameProfiles (a b : Device) : Prop where
  profiles : b.profiles = a.profiles := by rfl
  bound : ∀ u, (b.tunnel u).profile = (a.tunnel u).profile := by exact fun _ => rfl

namespace SameProfiles

theorem refl (d : Device) : SameProfiles d d := {}

theorem trans {a b c : Device} (h : SameProfiles a b) (k : SameProfiles b c) : SameProfiles a c :=
  ⟨k.profiles.trans h.profiles, fun u => (k.bound u).trans (h.bound u)⟩

theorem profileOf {a b : Device} (h : SameProfiles a b) (t : Nat) : b.profileOf t = a.profileOf t := by
  unfold Device.profileOf Device.profileAt
  rw [h.profiles, h.bound]

variable (d : Device)

theorem modTunnel (t : Nat) (f : Tunnel → Tunnel) (keeps : ∀ x, (f x).profile = x.profile) :
    SameProfiles d (d.modTunnel t f) where
  bound u := by
    rw [Device.tunnel_modTunnel]
    split
    next is => rw [keeps, is]
    next => rfl

theorem ite {c : Prop} [Decidable c] {a x y : Device} (hx : SameProfiles a x) (hy : SameProfiles a y) :
    SameProfiles a (if c then x else y) := by
  split
  · exact hx
  · exact hy

theorem give (e : EventSource) (t : Option Nat) : SameProfiles d (d.give e t) := {}

theorem pushNotice (p : Port) (n : Notice) : SameProfiles d (d.pushNotice p n) := by
  cases p <;> exact {}

theorem setLatch (t : Nat) (k : TunnelFault) (l : Option Latch) : SameProfiles d (d.setLatch t k l) :=
  modTunnel d t _ fun _ => rfl

theorem offerDevice (k : DeviceFault) : SameProfiles d (d.offerDevice k) := by
  unfold Device.offerDevice
  split
  · refine ite ?_ (refl d)
    exact trans {} (pushNotice ..)
  · exact refl d

theorem offerTunnel (t : Nat) (k : TunnelFault) : SameProfiles d (d.offerTunnel t k) := by
  unfold Device.offerTunnel
  split
  · refine ite ?_ (refl d)
    exact (setLatch d t k _).trans (pushNotice ..)
  · exact refl d

theorem deviceFault (k : DeviceFault) (n : Nat) : SameProfiles d (d.deviceFault k n) := by
  unfold Device.deviceFault
  split
  · exact {}
  · exact (trans {} (offerDevice _ k)).trans (give ..)

theorem latchTunnel (t : Nat) (k : TunnelFault) (n : Nat) (b : Bool) : SameProfiles d (d.latchTunnel t k n b) := by
  unfold Device.latchTunnel
  split
  · exact setLatch ..
  · exact ((setLatch ..).trans (offerTunnel ..)).trans (give ..)

theorem queuePart (party : Party) (t : Nat) (kind : FrameKind) (bs : List Byte) (proof : Option (BitVec 32 × Nat)) :
    SameProfiles d (d.queuePart party t kind bs proof) := by
  unfold Device.queuePart
  exact trans {} (modTunnel _ t _ fun _ => rfl)

theorem buildAttempt : SameProfiles d d.buildAttempt := by
  unfold Device.buildAttempt
  simp only
  split
  · refine ite ?_ {}
    split
    · exact trans {} (queuePart ..)
    · exact trans {} (deviceFault ..)
    · exact {}
  · exact {}

theorem startProof (retry : List Nat) (t : Nat) (p : Purpose) (m : ProofMode) (n : Nat) :
    SameProfiles d (({ d with proofs := { d.proofs with retry := retry } } : Device).startProof t p m n) := by
  unfold Device.startProof
  refine trans ?_ (buildAttempt _)
  exact trans (b := { d with proofs := { d.proofs with retry, running := _, capture := _ } }) {}
    (modTunnel _ t _ fun _ => rfl)

theorem retryStartTest : SameProfiles d d.retryStartTest := by
  unfold Device.retryStartTest
  split
  · refine ite ?_ (refl d)
    exact startProof d _ _ _ _ _
  · exact refl d

theorem retryResult (t : Nat) (r : ProofResult) (c : Option AbortCause) : SameProfiles d (d.retryResult t r c) := by
  unfold Device.retryResult
  refine ite (modTunnel _ _ _ fun _ => rfl) (ite (modTunnel _ _ _ fun x => ?_) (refl d))
  split <;> rfl

theorem proofFault (r : ProofRecord) (x : ProofResult) (c : Option AbortCause) :
    SameProfiles d (d.proofFault r x c) := by
  unfold Device.proofFault
  split
  · exact ite (latchTunnel ..) (refl d)
  · exact ite (latchTunnel ..) (refl d)

theorem endProof (x : ProofResult) (c : Option AbortCause) : SameProfiles d (d.endProof x c) := by
  unfold Device.endProof
  split
  · exact refl d
  next r _ =>
    refine trans ?_ (retryStartTest _)
    refine trans ?_ (proofFault ..)
    refine trans ?_ (pushNotice ..)
    have ended : SameProfiles d (({ d with proofs := { d.proofs with
        running := none
        last := some ⟨r.tunnel, r.purpose, r.mode, x, r.completed, r.sent, r.misses.sum, r.strays, d.clock⟩ } }
        : Device).modTunnel r.tunnel fun y => { y with underProof := false }) :=
      trans {} (modTunnel _ _ _ fun _ => rfl)
    exact ite (ended.trans (retryResult ..)) ended

theorem isolate (t : Nat) : SameProfiles d (d.isolate t) := by
  unfold Device.isolate Device.abortProof
  refine trans (modTunnel d t (fun x => { x with
    state := .isolated, holdDeadline := some (d.after (seconds (d.profileOf t).holdTime)) }) fun _ => rfl) ?_
  split
  · exact ite (endProof ..) (refl _)
  · exact refl _

theorem tunnelFault (t : Nat) (k : TunnelFault) (n : Nat) : SameProfiles d (d.tunnelFault t k n) := by
  unfold Device.tunnelFault
  exact ite ((latchTunnel ..).trans (isolate ..)) (latchTunnel ..)

end SameProfiles

/-! ### The timers -/

/-- A timer of the part starts at the clock value that the event has. -/
theorem Device.after_eq {d e : Device} (clock : e.clock = d.clock) (n : Nat) : e.after n = d.after n := by
  unfold Device.after
  rw [clock]

theorem Device.keepaliveAt_eq {d e : Device} (clock : e.clock = d.clock) {t : Nat}
    (profile : e.profileOf t = d.profileOf t) :
    e.keepaliveAt t = if (d.profileOf t).keepalive = 0 then none
      else some (d.after ((d.profileOf t).keepalive * 1000000)) := by
  unfold Device.keepaliveAt
  rw [profile]
  simp only [Device.after_eq clock]
  rfl

theorem runAfter_eq (threshold count run : Nat) :
    runAfter threshold count run = if threshold = 0 ∨ count < threshold then 0 else min (run + 1) 8 := by
  unfold runAfter
  by_cases zero : threshold = 0
  · rw [if_pos zero, if_pos (.inl zero)]
  · by_cases low : count < threshold
    · rw [if_neg zero, if_neg (by omega), if_pos (.inr low)]
    · rw [if_neg zero, if_pos (by omega), if_neg (by omega)]
      rfl

/-- A storm run at its persistence is an occurrence of its fault (R122). -/
def Device.persists (d : Device) (p : Profile) (t : Nat) (runs : Nat) (k : TunnelFault) (count : Nat) : Device :=
  if p.persistence ≤ runs then d.tunnelFault t k count else d

theorem Device.persists_kept (d : Device) (p : Profile) (t : Nat) (runs : Nat) (k : TunnelFault) (count : Nat) :
    (d.persists p t runs k count).clock = d.clock ∧ SameProfiles d (d.persists p t runs k count) := by
  unfold Device.persists
  split
  · exact ⟨(Change.tunnelFault ..).clock, .tunnelFault ..⟩
  · exact ⟨rfl, .refl d⟩

/-- The three storms judged at the end of an interval (R122). -/
def Device.storms (d : Device) (p : Profile) (t : Nat) (counts runs : StormCounts) : Device :=
  ((d.persists p t runs.authFail .authStorm counts.authFail).persists p t runs.replay .replayStorm counts.replay).persists
    p t runs.epochMiss .epochDrift counts.epochMiss

theorem Device.storms_kept (d : Device) (p : Profile) (t : Nat) (counts runs : StormCounts) :
    (d.storms p t counts runs).clock = d.clock ∧ (d.storms p t counts runs).profileOf t = d.profileOf t := by
  obtain ⟨c1, p1⟩ := d.persists_kept p t runs.authFail .authStorm counts.authFail
  obtain ⟨c2, p2⟩ := (d.persists p t runs.authFail .authStorm counts.authFail).persists_kept p t runs.replay
    .replayStorm counts.replay
  obtain ⟨c3, p3⟩ := ((d.persists p t runs.authFail .authStorm counts.authFail).persists p t runs.replay
    .replayStorm counts.replay).persists_kept p t runs.epochMiss .epochDrift counts.epochMiss
  exact ⟨c3.trans (c2.trans c1), ((p1.trans p2).trans p3).profileOf t⟩

theorem Device.intervalEnds_eq (d : Device) (t : Nat) :
    let p := d.profileOf t
    let c := (d.tunnel t).condition
    let e := (d.modTunnel t fun x => { x with condition := { x.condition with runs := c.runsAfter p } }).storms p t
      c.counts (c.runsAfter p)
    d.intervalEnds t = e.modTunnel t fun x => { x with condition := { x.condition with
      counts := ⟨0, 0, 0⟩
      intervalStart := some d.clock
      intervalDeadline := some (d.after (p.interval * 1000000))
      keepaliveDeadline :=
        if x.condition.keepaliveDeadline = none ∧ (x.state = .inService ∨ x.state = .isolated ∨ x.state = .failed) then
          (if p.keepalive = 0 then none else some (d.after (p.keepalive * 1000000)))
        else x.condition.keepaliveDeadline } } := by
  intro p c e
  obtain ⟨clock, profile⟩ := Device.storms_kept (d.modTunnel t fun x =>
    { x with condition := { x.condition with runs := c.runsAfter p } }) p t c.counts (c.runsAfter p)
  have bound : e.profileOf t = d.profileOf t := profile.trans
    (SameProfiles.profileOf (.modTunnel d t _ (by exact fun _ => rfl)) t)
  change e.clock = d.clock at clock
  unfold Device.intervalEnds
  change (e.modTunnel t fun x => x.modCondition fun c => { c with
    counts := ⟨0, 0, 0⟩, intervalStart := some e.clock, intervalDeadline := some (e.after (seconds p.interval))
    keepaliveDeadline := if c.keepaliveDeadline = none ∧ x.state.reexamined then e.keepaliveAt t
      else c.keepaliveDeadline }) = _
  rw [clock, Device.after_eq clock, Device.keepaliveAt_eq clock bound]
  simp only [TunnelState.reexamined_iff]
  rfl

theorem Device.silenceEnds_eq (d : Device) (t : Nat) :
    d.silenceEnds t = (d.tunnelFault t .shopSilent (d.profileOf t).silence).modTunnel t fun x =>
      { x with condition := { x.condition with
        silenceDeadline := some (d.after ((d.profileOf t).silence * 1000000)) } } := by
  unfold Device.silenceEnds
  simp only [Device.after_eq (Change.tunnelFault d t .shopSilent (d.profileOf t).silence).clock]
  rfl

theorem Tunnel.keepaliveWanted_iff (x : Tunnel) :
    x.keepaliveWanted = true ↔ (x.state = .inService ∨ x.state = .isolated)
      ∧ x.current.any (fun k => decide (k.state = .active)) = true ∧ x.condition.outstanding = false := by
  simp [Tunnel.keepaliveWanted, and_assoc]

theorem runsAfter_eq (c : Condition) (p : Profile) :
    let run (threshold count run : Nat) : Nat := if threshold = 0 ∨ count < threshold then 0 else min (run + 1) 8
    c.runsAfter p = ⟨run p.authThreshold c.counts.authFail c.runs.authFail,
      run p.replayThreshold c.counts.replay c.runs.replay,
      run p.epochThreshold c.counts.epochMiss c.runs.epochMiss⟩ := by
  unfold Condition.runsAfter
  simp only [runAfter_eq]

/-- An expiry whose deadline has come ends the event; elsewhere it changes nothing (logs 6 and 7). -/
theorem expires_iff {s : State} {at_ : Option Clock} {e f : Device} (same : e = f) :
    (at_ = some s.dev.clock → s.to (if s.dev.due at_ then e.finish else s.dev) = s.to f.finish)
      ∧ (at_ ≠ some s.dev.clock → s.to (if s.dev.due at_ then e.finish else s.dev) = .next s) := by
  refine ⟨fun due => ?_, fun no => ?_⟩
  · rw [if_pos ((s.dev.due_iff _).mpr due), same]
  · rw [if_neg fun due => no ((s.dev.due_iff _).mp due)]
    rfl

/-- Settles O51. -/
theorem conditionTimersExpire : Obligations.ConditionTimersExpire := by
  intro s t x c p deadline restarted run runs change occurs
  have interval := s.dev.intervalEnds_eq t
  simp only [runsAfter_eq] at interval
  obtain ⟨interval_due, interval_no⟩ := expires_iff (s := s) (at_ := c.intervalDeadline) interval
  obtain ⟨silence_due, silence_no⟩ := expires_iff (s := s) (at_ := c.silenceDeadline) (s.dev.silenceEnds_eq t)
  obtain ⟨keepalive_due, keepalive_no⟩ := expires_iff (s := s) (at_ := c.keepaliveDeadline) (e := s.dev.keepaliveEnds t)
    rfl
  refine ⟨interval_due, interval_no, silence_due, silence_no, fun due => ?_, keepalive_no⟩
  intro e wanted cells f built skip
  refine (keepalive_due due).trans ?_
  have body : s.dev.keepaliveEnds t =
      if ¬ wanted then e
      else if 256 < s.dev.store.charged .reserved + 1 then skip (e.deviceFault .reserveExhausted 0)
      else if 64 ≤ s.dev.engine.control.length ∨ 64 ≤ s.dev.traffic.notices.length + s.dev.generatedReserved then skip e
      else change built fun c => { c with outstanding := true } := by
    have timer : s.dev.keepaliveAt t = restarted := Device.keepaliveAt_eq rfl rfl
    have asks : (e.tunnel t).keepaliveWanted = x.keepaliveWanted := by
      rw [Device.tunnel_modTunnel, if_pos rfl]
      rfl
    have grant := e.partGrant_eq 1
    unfold Device.keepaliveEnds
    rw [timer]
    change (if (e.tunnel t).keepaliveWanted = true then _ else e) = _
    by_cases want : wanted
    · rw [if_pos (asks.trans (x.keepaliveWanted_iff.mpr want)), if_neg (not_not_intro want)]
      change (match e.partGrant 1 with | .granted => _ | .poolShort => _ | .placeShort => _) = _
      rw [grant]
      by_cases short : 256 < s.dev.store.charged .reserved + 1
      · rw [if_pos short, if_pos (show 256 < e.store.charged .reserved + 1 from short)]
        rfl
      · rw [if_neg short, if_neg (show ¬ 256 < e.store.charged .reserved + 1 from short)]
        by_cases full : 64 ≤ s.dev.engine.control.length ∨ 64 ≤ s.dev.traffic.notices.length + s.dev.generatedReserved
        · rw [if_pos full, if_pos (show 64 ≤ e.engine.control.length
            ∨ 64 ≤ e.traffic.notices.length + e.generatedReserved from full)]
          rfl
        · rw [if_neg full, if_neg (show ¬ (64 ≤ e.engine.control.length
            ∨ 64 ≤ e.traffic.notices.length + e.generatedReserved) from full)]
          rfl
    · rw [if_neg fun h => want (x.keepaliveWanted_iff.mp (asks.symm.trans h)), if_pos want]
  rw [body]
  split
  · rfl
  · split
    · rfl
    · split <;> rfl

end Sys2Proof.Machine
end

/-! PROOF. A frame accepted by an idle engine enters work in the event of its acceptance (R82, R83, R95, R97, R102). -/
section

namespace Sys2Proof.Machine

/-! ### What the end of an event leaves of a tunnel -/

/-- A tunnel keeps its frame count and causes, and its CURRENT key's state, count and mark: an offer of a flag changes
only whether the flag is reported. -/
def Tunnel.KeepsBinding (x y : Tunnel) : Prop :=
  y.frameCount = x.frameCount ∧ y.outCauses = x.outCauses
    ∧ ∀ c, x.current = some c → ∃ k, y.current = some ⟨c.state, k⟩ ∧ k.outCount = c.key.outCount ∧ k.bound = c.key.bound

theorem Tunnel.KeepsBinding.refl (x : Tunnel) : x.KeepsBinding x :=
  ⟨rfl, rfl, fun c is => ⟨c.key, is, rfl, rfl⟩⟩

theorem Tunnel.KeepsBinding.trans {x y z : Tunnel} (h : x.KeepsBinding y) (h' : y.KeepsBinding z) :
    x.KeepsBinding z := by
  obtain ⟨count, causes, key⟩ := h
  obtain ⟨count', causes', key'⟩ := h'
  refine ⟨count'.trans count, causes'.trans causes, fun c is => ?_⟩
  obtain ⟨k, is, out, bound⟩ := key c is
  obtain ⟨k', is', out', bound'⟩ := key' _ is
  exact ⟨k', is', out'.trans out, bound'.trans bound⟩

theorem KeyRecord.told_only (k : KeyRecord) (f : KeyFlag) :
    (k.told f).outCount = k.outCount ∧ (k.told f).bound = k.bound := by
  cases f <;> exact ⟨rfl, rfl⟩

theorem Tunnel.keepsBinding_told (x : Tunnel) (slot : Slot) (f : KeyFlag) :
    x.KeepsBinding (x.modKey slot (·.told f)) := by
  refine ⟨by cases slot <;> rfl, by cases slot <;> rfl, fun c is => ?_⟩
  cases slot with
  | current =>
    refine ⟨c.key.told f, ?_, c.key.told_only f⟩
    show x.current.map _ = _
    rw [is]
    rfl
  | next => exact ⟨c.key, is, rfl, rfl⟩
  | previous => exact ⟨c.key, is, rfl, rfl⟩

theorem Device.keepsBinding_offerFlag (d : Device) (y : Nat × Slot × KeyFlag) (t : Nat) :
    (d.tunnel t).KeepsBinding ((d.offerFlag y).tunnel t) := by
  unfold Device.offerFlag
  split
  · split
    · split
      · show (d.tunnel t).KeepsBinding ((d.modTunnel y.1 (·.modKey y.2.1 (·.told y.2.2))).tunnel t)
        rw [Device.tunnel_modTunnel]
        split
        next is => exact is ▸ Tunnel.keepsBinding_told ..
        next => exact .refl _
      · exact .refl _
    · exact .refl _
  · exact .refl _

theorem Device.keepsBinding_offerFlags (d : Device) (t : Nat) :
    (d.tunnel t).KeepsBinding (d.offerFlags.tunnel t) := by
  have fold : ∀ (ys : List (Nat × Slot × KeyFlag)) (e : Device),
      (e.tunnel t).KeepsBinding ((ys.foldl Device.offerFlag e).tunnel t) := by
    intro ys
    induction ys with
    | nil => exact fun e => .refl _
    | cons y ys ih => exact fun e => (e.keepsBinding_offerFlag y t).trans (ih _)
  exact fold _ d

theorem Device.keepsBinding_finish (d : Device) (t : Nat) :
    (d.settle.tunnel t).KeepsBinding (d.finish.tunnel t) := by
  have closed : ∀ e : Device, e.closeEvent.tunnel t = e.tunnel t := by
    intro e
    obtain ⟨_, _, _, same⟩ := e.closeEvent_only
    rw [same]
    rfl
  unfold Device.finish
  rw [closed]
  exact d.settle.keepsBinding_offerFlags t

/-! ### A frame alone in its queue -/

/-- A queue that holds frames of a class that a SEND_FRAME can name: the settle queue or the bulk queue. -/
def Engine.Only (e : Engine) (k : Queue) (fs : List Frame) : Prop :=
  e.control = [] ∧ ((k = .settle ∧ e.settle = fs ∧ e.bulk = []) ∨ (k = .bulk ∧ e.bulk = fs ∧ e.settle = []))

theorem Device.entryTest_only (d : Device) :
    ∃ m b, d.entryTest = { d with engine := { d.engine with mode := m }, bank := b } := by
  unfold Device.entryTest
  split
  · split
    · exact ⟨_, _, rfl⟩
    · exact ⟨_, _, rfl⟩
    · exact ⟨d.engine.mode, d.bank, rfl⟩
    · exact ⟨d.engine.mode, d.bank, rfl⟩
  · exact ⟨d.engine.mode, d.bank, rfl⟩

theorem Device.rescueTest_only (d : Device) :
    ∃ m b, d.rescueTest = { d with engine := { d.engine with mode := m }, bank := b } := by
  unfold Device.rescueTest
  split
  · split
    · exact ⟨_, _, rfl⟩
    · exact ⟨d.engine.mode, d.bank, rfl⟩
  · exact ⟨d.engine.mode, d.bank, rfl⟩

/-- A submission places its frame at the tail of its queue; the entry test touches the mode and the bank. -/
theorem Device.submit_only (d : Device) (k : Queue) (f : Frame) :
    ∃ m b, d.submit k f = { (d.passCells f.cells .queued).modTunnel f.tunnel fun x =>
        { x with frameCount := x.frameCount + 1 } with
      engine := { d.engine.setQueue k (d.engine.queue k ++ [f]) with mode := m }, bank := b } := by
  unfold Device.submit
  simp only
  split
  · obtain ⟨m, b, same⟩ := Device.entryTest_only { (d.passCells f.cells .queued).modTunnel f.tunnel fun x =>
      { x with frameCount := x.frameCount + 1 } with engine := d.engine.setQueue k (d.engine.queue k ++ [f]) }
    exact ⟨m, b, same⟩
  · exact ⟨d.engine.mode, d.bank, by cases k <;> rfl⟩

theorem Engine.choice_of_only {e : Engine} {k : Queue} {f : Frame} {fs : List Frame} (only : e.Only k (f :: fs)) :
    e.choice = k := by
  obtain ⟨normal, settleFirst, rescue⟩ := e.choice_of_mode
  obtain ⟨-, ⟨rfl, settle, bulk⟩ | ⟨rfl, bulk, settle⟩⟩ := only
  all_goals
    cases mode : e.mode with
    | rescue back n => simp [rescue back n mode, settle, bulk]
    | base m =>
      cases m with
      | normal => simp [normal mode, settle, bulk]
      | settleFirst => simp [settleFirst mode, settle]

/-- A take from queues that hold one frame judges that frame. -/
theorem Device.takeOne_only {d : Device} {k : Queue} {f : Frame} (only : d.engine.Only k [f]) :
    ∃ m t b, d.takeOne = ({ d with
      engine := { d.engine with control := [], settle := [], bulk := [], mode := m, turn := t }, bank := b }
      : Device).judgeFrame k f := by
  obtain ⟨m, b, same⟩ := d.rescueTest_only
  have rescued : d.rescueTest.engine.Only k [f] := by
    rw [same]
    exact only
  have chosen := Engine.choice_of_only rescued
  have head : d.rescueTest.engine.queue k = [f] := by
    obtain ⟨-, ⟨rfl, is, -⟩ | ⟨rfl, is, -⟩⟩ := rescued <;> exact is
  obtain ⟨m', t, after⟩ := (d.rescueTest.engine.setQueue k []).afterTake_only k
  refine ⟨m', t, b, ?_⟩
  unfold Device.takeOne
  simp only [only.1, chosen, head, after]
  rw [same]
  obtain ⟨control, ⟨rfl, -, other⟩ | ⟨rfl, -, other⟩⟩ := only
  · simp only [Engine.setQueue, control, other]
  · simp only [Engine.setQueue, control, other]

/-! ### The frame enters work -/

/-- A binding that meets no cause before it and no running proof: the CURRENT key is bound, and KEY_SPENT is added where
it is spent (R82, R83). -/
theorem Device.bindOutbound_spec {d : Device} {t : Nat} {c : CurrentKey} (is : (d.tunnel t).current = some c)
    (clear : (d.tunnel t).outCauses = ⟨false, false, false⟩) (active : c.state = .active)
    (idle : d.proofs.running = none) :
    let spent := decide ((d.profileOf t).hardFrames ≤ c.key.outCount + 1)
    (d.bindOutbound t).engine = d.engine ∧ (d.bindOutbound t).store = d.store
      ∧ (d.bindOutbound t).proofs = d.proofs
      ∧ (d.bindOutbound t).tunnel t = { d.tunnel t with
        current := some (c.bind (d.profileOf t)), outCauses := ⟨false, spent, false⟩ } := by
  intro spent
  have state : (c.bind (d.profileOf t)).state = .spent ↔ spent = true := by
    unfold CurrentKey.bind
    by_cases hard : (d.profileOf t).hardFrames ≤ c.key.outCount + 1 <;> simp [hard, active, spent]
  unfold Device.bindOutbound
  rw [is]
  simp only [state]
  split
  next is_spent =>
    have none_ : ∀ (e : Device) cause reaches, e.proofs.running = none → e.abortProof t cause reaches = e := by
      intro e cause reaches none_
      unfold Device.abortProof
      rw [none_]
    unfold Device.addKeyCause
    simp only
    split
    · rw [none_ ((d.modTunnel t _).modTunnel t _) _ _ idle]
      refine ⟨rfl, rfl, rfl, ?_⟩
      simp only [Device.tunnel_modTunnel, if_true, clear, is_spent, OutCauses.add]
    · refine ⟨rfl, rfl, rfl, ?_⟩
      simp only [Device.tunnel_modTunnel, if_true, clear, is_spent, OutCauses.add]
  next not_spent =>
    refine ⟨rfl, rfl, rfl, ?_⟩
    rw [Device.tunnel_modTunnel, if_pos rfl, Bool.eq_false_iff.mpr not_spent, ← clear]

theorem CurrentKey.bind_only (c : CurrentKey) (p : Profile) (active : c.state = .active) :
    ∃ k, c.bind p = ⟨if decide (p.hardFrames ≤ c.key.outCount + 1) = true then .spent else .active, k⟩
      ∧ k.outCount = c.key.outCount + 1 ∧ k.bound = true := by
  unfold CurrentKey.bind
  simp only [decide_eq_true_eq]
  split
  · split <;> exact ⟨_, rfl, rfl, rfl⟩
  · rw [active]
    split <;> exact ⟨_, rfl, rfl, rfl⟩

/-- A frame passed by its checks enters work, bound to the CURRENT key (R82, R102). -/
theorem Device.judgeFrame_spec {d : Device} {k : Queue} {f : Frame} {c : CurrentKey} (flow : f.flow = .outbound .data)
    (service : (d.tunnel f.tunnel).state = .inService) (clear : (d.tunnel f.tunnel).outCauses = ⟨false, false, false⟩)
    (is : (d.tunnel f.tunnel).current = some c) (active : c.state = .active) (kept : c.key.retirePending = false)
    (idle : d.proofs.running = none) :
    let spent := decide ((d.profileOf f.tunnel).hardFrames ≤ c.key.outCount + 1)
    let e := d.judgeFrame k f
    e.engine = { d.engine with inWork := some ⟨f, k, c.key.entry, c.key.outCount + 1⟩ }
      ∧ e.store = d.store.pass .inWork f.cells ∧ e.proofs = d.proofs
      ∧ e.tunnel f.tunnel = { d.tunnel f.tunnel with
        current := some (c.bind (d.profileOf f.tunnel)), outCauses := ⟨false, spent, false⟩ } := by
  intro spent e
  have passes : d.outboundCheck f.tunnel .data = none := by
    rw [Device.outboundCheck_eq]
    simp [service, clear, is, active, kept]
  have entry : (d.tunnel f.tunnel).entryOf .current = c.key.entry := by
    simp [Tunnel.entryOf, Tunnel.key?, is]
  have sequence : (((d.tunnel f.tunnel).key? .current).map (·.outCount)).getD 0 + 1 = c.key.outCount + 1 := by
    simp [Tunnel.key?, is]
  have judged : e = ({ d.passCells f.cells .inWork with
      engine := { d.engine with inWork := some ⟨f, k, c.key.entry, c.key.outCount + 1⟩ } }
      : Device).bindOutbound f.tunnel := by
    unfold e Device.judgeFrame
    simp only [flow, passes, entry, sequence]
  rw [judged]
  exact Device.bindOutbound_spec (d := { d.passCells f.cells .inWork with
    engine := { d.engine with inWork := some ⟨f, k, c.key.entry, c.key.outCount + 1⟩ } }) is clear active idle

/-- Settles O31. -/
theorem anIdleEngineTakesTheFrameAtOnce : Obligations.AnIdleEngineTakesTheFrameAtOnce := by
  intro s q key posed quiet engineIdle proofIdle known short least most distinct enough claimed service clear is kept
  obtain ⟨⟨noneDue, waits, -⟩, -⟩ := quiet
  have either : (if q.num 0 1 = 0 then Queue.settle else .bulk) = .settle
      ∨ (if q.num 0 1 = 0 then Queue.settle else .bulk) = .bulk := by
    split
    · exact .inl rfl
    · exact .inr rfl
  generalize k_eq : (if q.num 0 1 = 0 then Queue.settle else .bulk) = k at *
  obtain ⟨noControl, noSettle, noBulk⟩ : s.dev.engine.control = [] ∧ s.dev.engine.settle = []
      ∧ s.dev.engine.bulk = [] := by
    have none_ := waits engineIdle
    refine ⟨?_, ?_, ?_⟩ <;> refine Classical.byContradiction fun h => ?_ <;> rw [Bool.eq_false_iff] at none_ <;>
      exact none_ ((Engine.hasFrames_iff _).mpr (by simp [h]))
  have empty : s.dev.engine.queue k = [] := by
    obtain h | h := either <;> rw [h] <;> assumption
  let d := s.dev.taken .traffic 3
  let f : Frame := ⟨.trafficPort, q.tag, q.tunnel, .outbound .data, q.numbers 3,
    s.dev.store.readSeq (q.numbers 3) 0 (q.num 1 2), s.dev.clock, false, false, false, none⟩
  have accepted : d.sendFrame q = .wait (d.submit k f) := by
    have own := d.sendFrame_eq q
    simp only [d, Device.store_taken, Device.clock_taken, Device.engine_taken] at own
    refine own.trans ?_
    rw [if_neg (by rintro (h | h | h | h | ⟨n, is, h⟩ | h)
                   · omega
                   · omega
                   · omega
                   · omega
                   · exact absurd (claimed n is).1 (Nat.not_lt.mpr h)
                   · exact h distinct),
      if_neg fun ⟨n, is, h⟩ => h (claimed n is).2, if_neg (Nat.not_lt.mpr enough), k_eq, empty, if_neg]
    exact Nat.not_le.mpr (by cases k <;> decide)
  have event : exec (.sendFrame .traffic) s = s.to (d.submit k f).finish := by
    refine (exec_posed (c := .sendFrame .traffic) rfl posed).trans ?_
    rw [show (s.dev.taken .traffic 3).sendFrame q = _ from accepted]
    rfl
  obtain ⟨m, b, submitted⟩ := d.submit_only k f
  generalize d.submit k f = e at submitted event
  have only : e.engine.Only k [f] := by
    rw [submitted]
    obtain h | h := either <;> rw [h]
    · exact ⟨noControl, .inl ⟨rfl, congrArg (· ++ [f]) noSettle, noBulk⟩⟩
    · exact ⟨noControl, .inr ⟨rfl, congrArg (· ++ [f]) noBulk, noSettle⟩⟩
  have waiting : e.engine.inWork = none ∧ e.engine.hasFrames = true := by
    refine ⟨?_, (Engine.hasFrames_iff _).mpr ?_⟩
    · rw [submitted]
      cases k <;> exact engineIdle
    · obtain ⟨-, ⟨-, is, -⟩ | ⟨-, is, -⟩⟩ := only <;> simp [is]
  have tunnel : e.tunnel q.tunnel = { s.dev.tunnel q.tunnel with
      frameCount := (s.dev.tunnel q.tunnel).frameCount + 1 } := by
    have at_ := (d.passCells f.cells .queued).tunnel_modTunnel q.tunnel q.tunnel fun x =>
      { x with frameCount := x.frameCount + 1 }
    rw [if_pos rfl] at at_
    rw [submitted]
    exact at_
  have profile : e.profileOf q.tunnel = s.dev.profileOf q.tunnel := by
    have bound : (e.tunnel q.tunnel).profile = (s.dev.tunnel q.tunnel).profile := by rw [tunnel]
    unfold Device.profileOf
    rw [bound, submitted]
    rfl
  obtain ⟨m', turn, b', taken⟩ := Device.takeOne_only only
  obtain ⟨engine', store', proofs', tunnel'⟩ := Device.judgeFrame_spec (d := { e with
    engine := { e.engine with control := [], settle := [], bulk := [], mode := m', turn := turn }, bank := b' })
    (k := k) (f := f) (c := ⟨.active, key⟩) rfl ((congrArg Tunnel.state tunnel).trans service)
    ((congrArg Tunnel.outCauses tunnel).trans clear) ((congrArg Tunnel.current tunnel).trans is) rfl kept
    ((congrArg (fun x : Device => x.proofs.running) submitted).trans proofIdle)
  rw [← taken] at engine' store' proofs' tunnel'
  have ended : e.settle = { e.takeOne with buildDue := false } := by
    have notDue : ¬ (e.buildDue = true ∧ e.proofWaits = true) := by
      rintro ⟨due, -⟩
      rw [submitted] at due
      exact absurd (noneDue.symm.trans due) Bool.false_ne_true
    have busy : e.takeOne.engine.inWork ≠ none := by
      rw [engine']
      exact fun h => nomatch h
    have still : ¬ (e.takeOne.buildDue = true ∧ e.takeOne.proofWaits = true) := by
      have noProof : e.takeOne.proofs.running = none :=
        (congrArg ProofUnit.running proofs').trans
          ((congrArg (fun x : Device => x.proofs.running) submitted).trans proofIdle)
      rintro ⟨-, waits⟩
      unfold Device.proofWaits at waits
      rw [noProof] at waits
      exact Bool.false_ne_true waits
    rw [Device.settle_eq, if_neg notDue, if_pos waiting, Device.settle_eq, if_neg still, if_neg fun h => busy h.1]
  obtain ⟨engine_kept, store_kept⟩ := e.finish_kept
  obtain ⟨count, causes, key_kept⟩ := e.keepsBinding_finish q.tunnel
  rw [ended] at engine_kept store_kept
  change _ = e.takeOne.engine at engine_kept
  change _ = e.takeOne.store at store_kept
  have settled : e.settle.tunnel q.tunnel = e.takeOne.tunnel q.tunnel := by
    rw [ended]
    rfl
  rw [settled, tunnel'] at count causes key_kept
  obtain ⟨k1, bind, out, bound⟩ := CurrentKey.bind_only ⟨.active, key⟩ (s.dev.profileOf q.tunnel) rfl
  obtain ⟨k', is', out', bound'⟩ := key_kept _ (congrArg some ((congrArg _ profile).trans bind))
  generalize e.finish = last at event engine_kept store_kept count causes is'
  refine ⟨{ s with dev := last }, ⟨f, k, key.entry, key.outCount + 1⟩, k', event, ?_⟩
  have engine_end := engine_kept.trans engine'
  have store_end := store_kept.trans store'
  refine ⟨congrArg Engine.inWork engine_end, rfl, rfl, rfl, rfl, rfl, congrArg Engine.control engine_end,
    congrArg Engine.settle engine_end, congrArg Engine.bulk engine_end, fun n is => ?_, ?_, out'.trans out,
    bound'.trans bound, is', ?_⟩
  · show (last.store.cell n).state = .inWork
    have charged : (s.dev.store.cell n).state = .claimed .traffic := (claimed n is).2
    have queued : (e.store.cell n).state = .queued := by
      have same : e.store = s.dev.store.pass .queued (q.numbers 3) := by
        rw [submitted]
        rfl
      rw [same, CellStore.cell_pass_any, if_pos ⟨is, by rw [charged]; exact fun h => nomatch h⟩]
    rw [store_end]
    change ((e.store.pass .inWork (q.numbers 3)).cell n).state = .inWork
    rw [CellStore.cell_pass_any, if_pos ⟨is, by rw [queued]; exact fun h => nomatch h⟩]
  · exact count.trans (congrArg Tunnel.frameCount tunnel)
  · refine causes.trans ?_
    show (⟨false, decide ((e.profileOf q.tunnel).hardFrames ≤ key.outCount + 1), false⟩ : OutCauses) = _
    rw [profile]

end Sys2Proof.Machine
end

/-! PROOF. The requests that store nothing leave the engine and the frame store as they stand (R102, R144). -/
section

namespace Sys2Proof.Machine

/-- From a part in which no proof waits for room and no tunnel for a retry proof: the engine and the cell store stand,
and still nothing waits. -/
structure Still (a b : Device) : Prop where
  kept : a.proofs.retry = [] → a.proofWaits = false →
    b.engine = a.engine ∧ b.store = a.store ∧ b.proofs.retry = [] ∧ b.proofWaits = false

/-- The part as the own part of a request leaves it. -/
def Taken.part (d : Device) : Taken → Device
  | .refuse _ => d
  | .quiet e _ | .answer e _ | .wait e => e

/-- What the own part of a request answers keeps to the relation. -/
def Taken.Still (d : Device) (x : Taken) : Prop := Machine.Still d (x.part d)

namespace Still

theorem refl (d : Device) : Still d d := ⟨fun h k => ⟨rfl, rfl, h, k⟩⟩

/-- A change of other fields. -/
theorem aside {a b : Device} (engine : b.engine = a.engine := by rfl) (store : b.store = a.store := by rfl)
    (proofs : b.proofs = a.proofs := by rfl) : Still a b := by
  refine ⟨fun none_ quiet => ⟨engine, store, proofs ▸ none_, ?_⟩⟩
  unfold Device.proofWaits
  rw [proofs]
  exact quiet

theorem trans {a b c : Device} (h : Still a b) (k : Still b c) : Still a c := by
  refine ⟨fun none_ quiet => ?_⟩
  obtain ⟨engine, store, none_', quiet'⟩ := h.kept none_ quiet
  obtain ⟨engine', store', none_'', quiet''⟩ := k.kept none_' quiet'
  exact ⟨engine'.trans engine, store'.trans store, none_'', quiet''⟩

theorem ite {c : Prop} [Decidable c] {a x y : Device} (hx : Still a x) (hy : Still a y) :
    Still a (if c then x else y) := by
  split
  · exact hx
  · exact hy

theorem foldl {α : Type} (f : Device → α → Device) (hf : ∀ d a, Still d (f d a)) (xs : List α) :
    ∀ d, Still d (xs.foldl f d) := by
  induction xs with
  | nil => exact refl
  | cons x xs ih => exact fun d => (hf d x).trans (ih _)

variable (d : Device)

/-! ### Updates outside the engine and the proof unit -/

theorem modTunnel (t : Nat) (f : Tunnel → Tunnel) : Still d (d.modTunnel t f) := aside
theorem modCondition (t : Nat) (f : Condition → Condition) : Still d (d.modCondition t f) := aside
theorem setEntry (e : Nat) (v : KeyEntry) : Still d (d.setEntry e v) := aside
theorem give (e : EventSource) (c : Option Nat) : Still d (d.give e c) := aside
theorem setLatch (t : Nat) (k : TunnelFault) (l : Option Latch) : Still d (d.setLatch t k l) := aside
theorem setBank (b : Bank) : Still d { d with bank := b } := aside
theorem modPort (p : Port) (f : PortState → PortState) : Still d (d.modPort p f) := by cases p <;> exact aside
theorem pushNotice (p : Port) (n : Notice) : Still d (d.pushNotice p n) := modPort d p _

/-! ### Faults and proofs -/

theorem offerTunnel (t : Nat) (k : TunnelFault) : Still d (d.offerTunnel t k) := by
  unfold Device.offerTunnel
  split
  · exact ite ((setLatch ..).trans (pushNotice ..)) (refl d)
  · exact refl d

theorem offer (r : FaultRef) : Still d (d.offer r) := by
  cases r with
  | tunnel t k => exact offerTunnel ..
  | device k =>
    show Still d (d.offerDevice k)
    unfold Device.offerDevice
    split
    · exact ite aside (refl d)
    · exact refl d

theorem faultScan (n : Nat) : Still d (d.faultScan n) := foldl _ offer _ _

theorem latchTunnel (t : Nat) (k : TunnelFault) (n : Nat) (b : Bool) : Still d (d.latchTunnel t k n b) := by
  unfold Device.latchTunnel
  split
  · exact setLatch ..
  · exact ((setLatch ..).trans (offerTunnel ..)).trans (give ..)

/-- With no tunnel in the retry queue the start test starts nothing. -/
theorem retryStartTest : Still d d.retryStartTest := by
  refine ⟨fun none_ quiet => ?_⟩
  have same : d.retryStartTest = d := by
    unfold Device.retryStartTest
    rw [none_]
    cases d.proofs.running <;> rfl
  rw [same]
  exact ⟨rfl, rfl, none_, quiet⟩

theorem retryResult (t : Nat) (r : ProofResult) (c : Option AbortCause) : Still d (d.retryResult t r c) := by
  unfold Device.retryResult
  exact ite (modTunnel ..) (ite (modTunnel ..) (refl d))

theorem proofFault (r : ProofRecord) (x : ProofResult) (c : Option AbortCause) : Still d (d.proofFault r x c) := by
  unfold Device.proofFault
  split
  · exact ite (latchTunnel ..) (refl d)
  · exact ite (latchTunnel ..) (refl d)

/-- The running proof leaves. -/
theorem leaves (last : Option LastResult) :
    Still d { d with proofs := { d.proofs with running := none, last := last } } :=
  ⟨fun none_ _ => ⟨rfl, rfl, none_, rfl⟩⟩

theorem endProof (x : ProofResult) (c : Option AbortCause) : Still d (d.endProof x c) := by
  unfold Device.endProof
  split
  · exact refl d
  next r _ =>
    have left_ := (leaves d (some ⟨r.tunnel, r.purpose, r.mode, x, r.completed, r.sent, r.misses.sum, r.strays,
      d.clock⟩)).trans (modTunnel _ r.tunnel fun y => { y with underProof := false })
    refine trans ?_ (retryStartTest _)
    refine trans ?_ (proofFault ..)
    refine trans ?_ (pushNotice ..)
    exact ite (left_.trans (retryResult ..)) left_

theorem abortProof (t : Nat) (c : AbortCause) (f : Purpose → Bool) : Still d (d.abortProof t c f) := by
  unfold Device.abortProof
  split
  · exact ite (endProof ..) (refl d)
  · exact refl d

theorem tunnelFault (t : Nat) (k : TunnelFault) (n : Nat) : Still d (d.tunnelFault t k n) := by
  have isolate : ∀ e : Device, Still e (e.isolate t) := fun e => (modTunnel e t _).trans (abortProof ..)
  unfold Device.tunnelFault
  exact ite ((latchTunnel ..).trans (isolate _)) (latchTunnel ..)

theorem removeNotices (gone : Notice → Bool) : Still d (d.removeNotices gone) := by
  unfold Device.removeNotices
  exact ite (refl d) (((modPort d .operations _).trans (faultScan ..)).trans (retryStartTest _))

/-! ### Keys -/

theorem retireKey (t : Nat) (s : Slot) : Still d (d.retireKey t s) := by
  have dropKey : ∀ e : Device, Still e (e.dropKey t s) := by
    intro e
    unfold Device.dropKey
    split
    · exact (setEntry ..).trans (modTunnel ..)
    · exact refl e
  unfold Device.retireKey
  split
  · exact ite (modTunnel ..) (dropKey d)
  · exact refl d

theorem addKeyCause (t : Nat) (c : KeyCause) : Still d (d.addKeyCause t c) := by
  unfold Device.addKeyCause
  exact ite ((modTunnel ..).trans (abortProof ..)) (modTunnel ..)

theorem promote (t : Nat) : Still d (d.promote t).1 := by
  have earlyRetire : Still d (d.earlyRetire t).1 := by
    unfold Device.earlyRetire
    split
    · exact (retireKey ..).trans (give ..)
    · exact refl d
  have demote : ∀ (e : Device) (k : KeyRecord) (g : Option Clock) (b : Bool), Still e (e.demote t k g b) :=
    fun e _ _ _ => modTunnel e t _
  have demotion : ∀ e : Device, Still e (e.demotion t).1 := by
    intro e
    unfold Device.demotion
    simp only
    split
    · exact refl e
    · split
      · exact ite (retireKey ..) ((retireKey ..).trans (give ..))
      · split
        · exact demote ..
        · exact demote ..
        · split
          · exact demote ..
          · exact retireKey ..
  unfold Device.promote
  split
  · exact refl d
  · exact ((earlyRetire.trans (demotion _)).trans (modTunnel ..)).trans (give ..)

theorem reexamine (n : Nat) : Still d (d.reexamine n) := by
  have tunnel : ∀ (e : Device) t, Still e (e.reexamineTunnel t) := by
    intro e t
    unfold Device.reexamineTunnel
    split
    · exact refl e
    next c _ =>
      have aged := modTunnel e t fun x => { x with current := some (c.reexamine (e.profileOf t) (e.ageOf c.key)) }
      have cause : ∀ (a : Device) (x : Bool) (k : KeyCause), Still e a →
          Still e (if x = true then a.addKeyCause t k else a) :=
        fun a x k h => ite (h.trans (addKeyCause ..)) h
      have causes := fun x y => cause _ y .spent (cause _ x .expired aged)
      exact ite ((causes _ _).trans (tunnelFault ..)) (causes _ _)
  exact foldl _ (fun e t => ite (tunnel e t) (refl e)) _ d

/-! ### The requests -/

theorem discardNext (q : Request) : (d.discardNext q).Still d := by
  unfold Device.discardNext
  simp only
  split
  · exact refl d
  · split
    · exact refl d
    · split
      · exact retireKey d ..
      · exact refl d

theorem promoteRequest (q : Request) : (d.promoteRequest q).Still d := by
  unfold Device.promoteRequest
  simp only
  split
  · exact refl d
  · split
    · exact refl d
    · split
      · exact refl d
      · split
        · exact promote d q.tunnel
        · exact refl d

theorem retirePrevious (q : Request) : (d.retirePrevious q).Still d := by
  unfold Device.retirePrevious
  simp only
  split
  · exact refl d
  · split
    · exact refl d
    · split
      · exact refl d
      · exact retireKey d ..

theorem openTunnel (q : Request) : (d.openTunnel q).Still d := by
  unfold Device.openTunnel
  simp only
  split
  · exact refl d
  · split
    · exact refl d
    · split
      · exact refl d
      · exact (modTunnel d ..).trans (removeNotices ..)

theorem setHolds (q : Request) : (d.setHolds q).Still d := by
  unfold Device.setHolds
  simp only
  split
  · split
    · exact refl d
    · exact (modTunnel d q.tunnel _).trans (ite (abortProof ..) (refl _))
  · exact refl d

theorem writeProfile (q : Request) : (d.writeProfile q).Still d := by
  unfold Device.writeProfile
  simp only
  split
  · exact refl d
  · split
    · exact refl d
    · split
      · exact refl d
      · exact trans (b := { d with profiles := _ }) aside (ite (reexamine ..) (refl _))

theorem ackFault (q : Request) : (d.ackFault q).Still d := by
  have tunnel : ∀ k, (d.ackTunnel q.tunnel k).Still d := by
    intro k
    unfold Device.ackTunnel
    split
    · exact refl d
    · exact ((setLatch d ..).trans (modCondition ..)).trans (removeNotices ..)
  have device : ∀ k, (d.ackDevice k).Still d := by
    intro k
    unfold Device.ackDevice
    split
    · exact refl d
    · exact trans (b := { d with faults := _ }) aside (removeNotices ..)
  unfold Device.ackFault
  split
  · split
    · exact device _
    · exact refl d
  · split
    · exact tunnel _
    · exact refl d

theorem stopRequest (q : Request) : (d.stopRequest q).Still d := by
  unfold Device.stopRequest
  split
  · split
    · exact endProof d ..
    · exact refl d
  · exact refl d

theorem writePattern (q : Request) : (d.writePattern q).Still d := by
  unfold Device.writePattern
  simp only
  split
  · exact refl d
  · split
    · exact refl d
    · exact ⟨fun none_ quiet => ⟨rfl, rfl, none_, quiet⟩⟩

theorem setMonitor (q : Request) : (d.setMonitor q).Still d := by
  unfold Device.setMonitor
  simp only
  split
  · exact refl d
  · split
    · exact refl d
    · split
      · exact refl d
      · split
        · exact refl d
        · exact aside

theorem tellProfile (q : Request) : (d.tellProfile q).Still d := by
  unfold Device.tellProfile
  simp only
  split
  · exact refl d
  · split
    · exact refl d
    · exact refl d

theorem bankRequests (q : Request) :
    (d.freezeBank q).Still d ∧ (d.thawBank q).Still d ∧ (d.clearBank q).Still d := by
  unfold Device.freezeBank Device.thawBank
  refine ⟨?_, ?_, setBank d _⟩
  · split
    · exact setBank d _
    · exact refl d
  · split
    · exact setBank d _
    · exact refl d

theorem save (q : Request) : (d.save q).Still d := by
  unfold Device.save
  split
  · exact refl d
  · split
    · exact refl d
    · exact aside

end Still

/-- The codes of the requests that store nothing, but for the claim. -/
def storesNothing : List Nat :=
  [5, 8, 9, 10, 11, 12, 14, 15, 16, 17, 18, 19, 20, 21, 23, 25, 26, 27, 28, 29, 30, 31, 32]

theorem Still.of_requestOf {c : Instr} {p : Port} {code : Nat} {own : Device → Request → Taken}
    (h : requestOf c = some (p, code, own)) (named : code ∈ storesNothing) (d : Device) (q : Request) :
    (own d q).Still d := by
  cases c <;> cases h
  case claimCells => exact absurd named (by decide)
  case releaseCells => exact absurd named (by decide)
  case sendFrame => exact absurd named (by decide)
  case receiveFrame => exact absurd named (by decide)
  case readService => exact refl d
  case sendDialogue => exact absurd named (by decide)
  case installKey => exact absurd named (by decide)
  case discardNext => exact discardNext d q
  case readSlots => exact refl d
  case promote => exact promoteRequest d q
  case retirePrevious => exact retirePrevious d q
  case openTunnel => exact openTunnel d q
  case closeTunnel => exact absurd named (by decide)
  case setHolds => exact setHolds d q
  case readTunnel => exact refl d
  case writeProfile => exact writeProfile d q
  case readProfile => exact tellProfile d q
  case readEngine => exact refl d
  case ackFault => exact ackFault d q
  case readCondition => exact refl d
  case readDeviceFaults => exact refl d
  case startProof => exact absurd named (by decide)
  case stopProof => exact stopRequest d q
  case restoreTunnel => exact absurd named (by decide)
  case writePattern => exact writePattern d q
  case readProof => exact refl d
  case setMonitor => exact setMonitor d q
  case freezeMonitors => exact (bankRequests d q).1
  case thawMonitors => exact (bankRequests d q).2.1
  case clearMonitors => exact (bankRequests d q).2.2
  case readMonitors => exact refl d
  case saveSettings => exact save d q

/-! ### The end of the event -/

/-- The own part of a claim takes cells and touches no byte of them. -/
theorem Device.claim_part (p : Port) (d : Device) (q : Request) :
    ((d.claim p q).part d).engine = d.engine ∧ ((d.claim p q).part d).proofs = d.proofs
      ∧ ((d.claim p q).part d).store.bytes = d.store.bytes := by
  have bytes : ∀ (ns : List Nat) (c : CellStore) pool st, (c.take pool st ns).bytes = c.bytes := by
    intro ns
    induction ns with
    | nil => exact fun _ _ _ => rfl
    | cons n ns ih => exact fun c pool st => ih (c.setCell n ⟨st, some pool⟩) pool st
  unfold Device.claim
  simp only
  split
  · exact ⟨rfl, rfl, rfl⟩
  · split
    · exact ⟨rfl, rfl, bytes ..⟩
    · exact ⟨rfl, rfl, rfl⟩

/-- An event in which nothing came to wait ends with the engine and the cell store as its operation left them. -/
theorem Device.finish_of_quiet {d : Device} (engine : d.engine.inWork = none → d.engine.hasFrames = false)
    (quiet : d.proofWaits = false) : d.finish.engine = d.engine ∧ d.finish.store = d.store := by
  have settled : d.settle = { d with buildDue := false } := by
    rw [Device.settle_eq, if_neg fun h => Bool.false_ne_true (quiet.symm.trans h.2),
      if_neg fun h => Bool.false_ne_true ((engine h.1).symm.trans h.2)]
  obtain ⟨engine_kept, store_kept⟩ := d.finish_kept
  rw [settled] at engine_kept store_kept
  exact ⟨engine_kept, store_kept⟩

/-- The engine and the cell store after a request: as its own part leaves them. -/
theorem Device.conclude_of_quiet {d : Device} (idle : d.engine.inWork = none → d.engine.hasFrames = false)
    (p : Port) (q : Request) (n : Nat) (x : Taken) (engine : (x.part d).engine = d.engine)
    (quiet : (x.part d).proofWaits = false) :
    (d.conclude p q n x).engine = d.engine ∧ (d.conclude p q n x).store = (x.part d).store := by
  have replied : ∀ (e : Device) (r : Reply), (e.reply p q n r).engine = e.engine ∧ (e.reply p q n r).store = e.store
      ∧ (e.reply p q n r).proofWaits = e.proofWaits :=
    fun e r => by cases p <;> exact ⟨rfl, rfl, rfl⟩
  cases x with
  | refuse st =>
    obtain ⟨e1, e2, -⟩ := replied d ⟨st, .none, .empty⟩
    exact ⟨e1, e2⟩
  | quiet e r =>
    obtain ⟨e1, e2, -⟩ := replied e r
    exact ⟨e1.trans engine, e2⟩
  | answer e r =>
    obtain ⟨e1, e2, e3⟩ := replied e r
    have engine' : (e.reply p q n r).engine = d.engine := e1.trans engine
    obtain ⟨f1, f2⟩ := Device.finish_of_quiet (d := e.reply p q n r) (by rw [engine']; exact idle) (e3.trans quiet)
    exact ⟨f1.trans engine', f2.trans e2⟩
  | wait e =>
    have engine' : e.engine = d.engine := engine
    obtain ⟨f1, f2⟩ := Device.finish_of_quiet (d := e) (by rw [engine']; exact idle) quiet
    exact ⟨f1.trans engine', f2⟩

/-- A request whose own part leaves the engine and lets nothing come to wait. -/
theorem Device.takeRequest_of_quiet {d : Device} (h : d.Quiet) (none_ : d.proofs.retry = []) (p : Port) (code : Nat)
    {own : Device → Request → Taken} {P : CellStore → Prop} (same : P d.store)
    (part : ∀ e q, e.engine = d.engine → e.store = d.store → e.proofs.retry = [] → e.proofWaits = false →
      ((own e q).part e).engine = e.engine ∧ ((own e q).part e).proofWaits = false ∧ P ((own e q).part e).store) :
    (d.takeRequest p code own).engine = d.engine ∧ P (d.takeRequest p code own).store := by
  obtain ⟨⟨-, idle, -⟩, quiet⟩ := h
  unfold Device.takeRequest
  split
  · exact ⟨rfl, same⟩
  next row _ =>
    split
    · exact ⟨rfl, same⟩
    next q _ =>
      obtain ⟨e1, e2, e3, e4⟩ : (d.popRequest p row.places).engine = d.engine
          ∧ (d.popRequest p row.places).store = d.store ∧ (d.popRequest p row.places).proofs.retry = []
          ∧ (d.popRequest p row.places).proofWaits = false := by
        cases p <;> exact ⟨rfl, rfl, none_, quiet⟩
      generalize d.popRequest p row.places = e at e1 e2 e3 e4
      simp only
      split
      next st _ =>
        obtain ⟨f1, f2⟩ := Device.conclude_of_quiet (d := e) (by rw [e1]; exact idle) p q row.places (.refuse st) rfl e4
        exact ⟨f1.trans e1, by rw [f2]; exact e2 ▸ same⟩
      · obtain ⟨g1, g2, g3⟩ := part e q e1 e2 e3 e4
        obtain ⟨f1, f2⟩ := Device.conclude_of_quiet (d := e) (by rw [e1]; exact idle) p q row.places (own e q) g1 g2
        exact ⟨f1.trans e1, f2 ▸ g3⟩

/-- Settles O16. -/
theorem requestsThatStoreNothing : Obligations.RequestsThatStoreNothing := by
  intro c s t p code request named quiet none_ event
  obtain ⟨own, is⟩ := requestOf_of_requestTaken request
  obtain ⟨-, image, clock⟩ := settingsAndClockChangeOnlyByTheirCommands c s t event
  have dev : t.dev = s.dev.takeRequest p code own := by
    rw [exec_request is] at event
    exact (congrArg State.dev (Host.Outcome.next.inj event)).symm
  have clock_kept : t.dev.clock = s.dev.clock := by
    rw [clock (by rintro rfl; cases request) (by rintro _ rfl; cases request), if_neg (by rintro rfl; cases request)]
  have image_kept := image (by rintro rfl; cases request)
  by_cases claims : code = 1
  · obtain ⟨engine, bytes⟩ := Device.takeRequest_of_quiet quiet none_ p code (own := own)
      (P := fun x => x.bytes = s.dev.store.bytes) rfl fun e q same_engine same_store _ waits => by
        have is_claim : own = Device.claim p := by
          subst claims
          cases c <;> cases is
          rfl
        obtain ⟨engine, proofs, bytes⟩ := e.claim_part p q
        rw [is_claim]
        refine ⟨engine, ?_, bytes.trans (same_store ▸ rfl)⟩
        unfold Device.proofWaits at waits ⊢
        rw [proofs]
        exact waits
    rw [← dev] at engine bytes
    exact ⟨fun a => congrArg (·.read a) bytes, clock_kept, image_kept, engine, fun other => absurd claims other⟩
  · have still : code ∈ storesNothing := by
      have : code ∈ 1 :: storesNothing := named
      exact (List.mem_cons.mp this).resolve_left claims
    obtain ⟨engine, store⟩ := Device.takeRequest_of_quiet quiet none_ p code (own := own)
      (P := fun x => x = s.dev.store) rfl fun e q _ same_store no waits => by
        obtain ⟨engine, store, -, waits'⟩ := (Still.of_requestOf is still e q).kept no waits
        exact ⟨engine, waits', store.trans same_store⟩
    rw [← dev] at engine store
    exact ⟨fun a => by rw [store], clock_kept, image_kept, engine, fun _ => store⟩

end Sys2Proof.Machine
end

/-! PROOF. Resets, loads and saves: the emptied part and the invariants it meets, the settings image and its ranges (R15,
R33, R53, R94, R95, R161, R171, R181, R182, R183, R184, R185). -/
section

namespace Sys2Proof.Machine

/-! ### The emptied part -/

theorem Device.emptied_powerOn (i : Image) (n : Nat) : ({ Device.powerOn i with draws := n } : Device).Emptied := by
  refine ⟨rfl, fun _ => rfl, fun _ => rfl, fun _ => rfl, fun _ => rfl, rfl, rfl, rfl, rfl, rfl, rfl, rfl, rfl, rfl, rfl,
    rfl, rfl, rfl, fun p => ?_, rfl, rfl⟩
  cases p <;> exact ⟨rfl, rfl, rfl, rfl, rfl, rfl, rfl, rfl⟩

theorem Device.emptied_restart (d : Device) : d.restart.Emptied := by
  refine ⟨rfl, fun _ => rfl, fun _ => rfl, fun _ => rfl, fun _ => rfl, rfl, rfl, rfl, rfl, rfl, rfl, rfl, rfl, rfl, rfl,
    rfl, rfl, rfl, fun p => ?_, rfl, rfl⟩
  cases p <;> exact ⟨rfl, rfl, rfl, rfl, rfl, rfl, rfl, rfl⟩

namespace Device.Emptied

variable {d : Device}

theorem held (h : d.Emptied) : d.engine.held = [] := by
  obtain ⟨-, -, -, -, -, -, control, settle, bulk, inWork, -⟩ := h
  unfold Engine.held Engine.waiting
  rw [control, settle, bulk, inWork]
  rfl

theorem not_holds (h : d.Emptied) (t : Nat) (s : Slot) (k : KeyRecord) : ¬ d.Holds t s k := by
  obtain ⟨-, -, -, tunnel, -⟩ := h
  unfold Device.Holds
  rw [tunnel]
  cases s <;> exact fun h => nomatch h

theorem freeZero (h : d.Emptied) : d.store.FreeZero := by
  obtain ⟨-, -, bytes, -⟩ := h
  exact fun _ _ _ _ => bytes _

theorem framesHold (h : d.Emptied) : d.FramesHold := by
  have none_ := h.held
  obtain ⟨-, -, -, -, -, -, control, settle, bulk, inWork, -⟩ := h
  refine ⟨fun f is => ?_, fun w is => ?_, ?_, fun f is => ?_⟩
  · unfold Engine.waiting at is
    rw [control, settle, bulk] at is
    exact absurd is List.not_mem_nil
  · rw [inWork] at is
    exact nomatch is
  · rw [none_]
    exact List.nodup_nil
  · rw [none_] at is
    exact absurd is List.not_mem_nil

theorem placesKept (h : d.Emptied) : d.PlacesKept := by
  have none_ := h.held
  obtain ⟨-, -, -, tunnel, -, jobs, -, -, -, -, -, -, -, -, -, -, -, -, ports, -, saving⟩ := h
  refine ⟨fun p => ⟨?_, ?_⟩, fun t _ => ?_, fun f is => ?_⟩
  · have owed : d.owed p = 0 := by
      unfold Device.owed
      cases p
      · rw [none_]
        rfl
      · rw [none_, jobs]
        rfl
      · simp only [tunnel, saving]
        have no : (List.range 480).countP (fun _ => Tunnel.initial.closeTag.isSome) = 0 :=
          List.countP_eq_zero.mpr fun _ _ => Bool.false_ne_true
        rw [no]
        rfl
    rw [owed]
    exact Nat.zero_le _
  · obtain ⟨-, -, responses, reserved, -⟩ := ports p
    rw [responses, reserved]
    decide
  · rw [tunnel]
    rfl
  · rw [none_] at is
    exact absurd is List.not_mem_nil

theorem noticesKept (h : d.Emptied) : d.NoticesKept := by
  have none_ := h.held
  obtain ⟨-, -, -, -, -, -, control, settle, bulk, inWork, -, -, -, -, -, -, -, -, ports, -⟩ := h
  obtain ⟨-, -, -, -, notices, -⟩ := ports .traffic
  refine ⟨?_, fun f is => ?_, fun f is => ?_⟩
  · have none_reserved : d.generatedReserved = 0 := by
      unfold Device.generatedReserved
      rw [control, inWork]
      rfl
    rw [none_reserved, show d.traffic.notices = [] from notices]
    decide
  · rw [settle, bulk] at is
    exact absurd is List.not_mem_nil
  · rw [none_] at is
    exact absurd is List.not_mem_nil

theorem retryKept (h : d.Emptied) : d.RetryKept := by
  obtain ⟨-, -, -, tunnel, -, -, -, -, -, -, -, -, -, running, -, -, -, retry, -⟩ := h
  refine ⟨?_, fun t is => ?_, fun r is => ?_, fun t is => ?_, fun t is => ?_, fun t _ => ?_⟩
  · rw [retry]
    exact List.nodup_nil
  · rw [retry] at is
    exact absurd is List.not_mem_nil
  · rw [running] at is
    exact nomatch is
  · rw [tunnel] at is
    exact nomatch is
  · rw [tunnel] at is
    exact nomatch is
  · rw [tunnel]
    rfl

theorem keysKept (h : d.Emptied) : d.KeysKept := by
  have none_ := h.not_holds
  obtain ⟨-, -, -, tunnel, entries, jobs, -, -, -, inWork, -⟩ := h
  refine ⟨fun e => ⟨fun used => absurd (entries e) used, fun ⟨t, s, k, is, _⟩ => absurd is (none_ t s k)⟩,
    fun t s k _ _ _ is => absurd is (none_ t s k), fun t s k is => absurd is (none_ t s k), fun j is => ?_, ?_,
    fun t n is => ?_, fun t => ?_, fun t s k is => absurd is (none_ t s k), fun w is => ?_,
    fun t s k is => absurd is (none_ t s k)⟩
  · rw [jobs] at is
    exact absurd is List.not_mem_nil
  · rw [jobs]
    exact List.nodup_nil
  · rw [tunnel] at is
    exact nomatch is
  · rw [tunnel]
    exact ⟨fun h => absurd h Bool.false_ne_true, fun ⟨_, is, _⟩ => nomatch is⟩
  · rw [inWork] at is
    exact nomatch is

end Device.Emptied

theorem exec_powerOnReset (s : State) : exec .powerOnReset s = s.to s.dev.powerReset := rfl

/-- Settles O3. -/
theorem powerOnResetEmptiesThePart : Obligations.PowerOnResetEmptiesThePart := by
  refine ⟨rfl, fun s => ⟨s.dev.powerReset, exec_powerOnReset s, Device.emptied_powerOn .., fun p => ?_, rfl, rfl, rfl,
    rfl, rfl⟩⟩
  cases p <;> rfl

/-- Settles O4. -/
theorem resetMeetsTheInvariants : Obligations.ResetMeetsTheInvariants := by
  have emptied : State.reset.dev.Emptied := Device.emptied_powerOn factoryImage 0
  exact ⟨rfl, rfl, rfl, emptied, CellStore.ok_empty, emptied.freeZero, emptied.framesHold, Device.bounded_powerOn _,
    Device.Settled.powerOn _, emptied.placesKept, emptied.noticesKept, emptied.retryKept, emptied.keysKept⟩

/-- Settles O7. -/
theorem deviceRestartKeepsTheBank : Obligations.DeviceRestartKeepsTheBank := by
  refine ⟨fun s q ready head code flags => ?_, fun s p q offers code => ?_⟩
  · refine ⟨s.dev.restart, ?_, s.dev.emptied_restart, fun p => by cases p <;> rfl, rfl, rfl, rfl, rfl⟩
    have at_head : s.dev.headRequest .operations = some q := (if_pos ready).trans head
    have passes : commonTests .operations ⟨[.operations], 0, false⟩ q = none := by
      simp [commonTests, flags]
    show s.to (s.dev.takeRestart .operations) = _
    unfold Device.takeRestart
    simp only [at_head, show catalogue 33 = some ⟨[.operations], 0, false⟩ from rfl, passes, if_pos code]
  · intro refused
    obtain ⟨ready, head, room⟩ := offers
    have at_head : s.dev.headRequest p = some q := (if_pos ready).trans head
    have refuses : ∀ st, commonTests p ⟨[.operations], 0, false⟩ q = some st → refused st := by
      intro st fails
      show s.to (s.dev.takeRestart p) = _
      unfold Device.takeRestart
      simp only [at_head, show catalogue 33 = some ⟨[.operations], 0, false⟩ from rfl, fails, if_pos code]
      rw [if_pos (show (s.dev.port p).canReserve 1 = true from decide_eq_true room)]
      rfl
    refine ⟨fun other => refuses _ ?_, fun is flagged => refuses _ ?_⟩
    · exact if_pos (by simpa using other)
    · have notDevice : ¬ q.device = true := by
        simp [Request.device, code]
      subst is
      simp [commonTests, flagged, notDevice]

/-! ### The settings image -/

theorem Marks.ok_iff (m : Marks) :
    m.ok = true ↔ 2 ≤ m.high ∧ m.high ≤ 384 ∧ m.low < m.high ∧ 100 ≤ m.rescueLimit ∧ m.rescueLimit ≤ 100000
      ∧ 1 ≤ m.rescueBatch ∧ m.rescueBatch ≤ 64 := by
  simp only [Marks.ok, within, Bool.and_eq_true, decide_eq_true_eq]
  omega

theorem Pattern.ok_iff (p : Pattern) :
    p.ok = true ↔ (p.length = 0 ∨ (16 ≤ p.length ∧ p.length ≤ 1472)) ∧ p.seed ≤ 255 ∧ p.step ≤ 255 := by
  simp only [Pattern.ok, within, Bool.and_eq_true, Bool.or_eq_true, decide_eq_true_eq]
  omega

theorem anyActive_iff (ps : List Pattern) : anyActive ps = true ↔ ∃ p ∈ ps, p.length ≠ 0 := by
  simp [anyActive]

theorem Items.ok_iff (x : Items) :
    x.ok = true ↔ x.profiles.length = 8
      ∧ (∀ p ∈ x.profiles,
        (1 ≤ p.softFrames ∧ p.softFrames ≤ 2 ^ 40 ∧ p.softFrames ≤ p.hardFrames ∧ p.hardFrames ≤ 2 ^ 40
          ∧ 60 ≤ p.softAge ∧ p.softAge ≤ 2592000 ∧ p.softAge ≤ p.hardAge ∧ p.hardAge ≤ 2592000
          ∧ 100 ≤ p.grace ∧ p.grace ≤ 60000)
        ∧ (p.keepalive ≤ 300 ∧ 3 ≤ p.silence ∧ p.silence ≤ 3600 ∧ 1 ≤ p.interval ∧ p.interval ≤ 60
          ∧ p.authThreshold ≤ 65535 ∧ p.replayThreshold ≤ 65535 ∧ p.epochThreshold ≤ 65535
          ∧ 1 ≤ p.persistence ∧ p.persistence ≤ 8)
        ∧ 1 ≤ p.holdTime ∧ p.holdTime ≤ 600 ∧ p.retryLimit ≤ 7 ∧ p.report.tunnelFailed = true)
      ∧ x.patterns.length = 8
      ∧ (∀ p ∈ x.patterns,
        (p.length = 0 ∨ (16 ≤ p.length ∧ p.length ≤ 1472)) ∧ p.seed ≤ 255 ∧ p.step ≤ 255)
      ∧ (∃ p ∈ x.patterns, p.length ≠ 0)
      ∧ (2 ≤ x.marks.high ∧ x.marks.high ≤ 384 ∧ x.marks.low < x.marks.high ∧ 100 ≤ x.marks.rescueLimit
        ∧ x.marks.rescueLimit ≤ 100000 ∧ 1 ≤ x.marks.rescueBatch ∧ x.marks.rescueBatch ≤ 64)
      ∧ x.lowMark ≤ 1024 := by
  have profile : ∀ p : Profile, (p.keysOk && p.conditionOk && p.faultsOk && p.report.tunnelFailed) = true ↔
      (1 ≤ p.softFrames ∧ p.softFrames ≤ 2 ^ 40 ∧ p.softFrames ≤ p.hardFrames ∧ p.hardFrames ≤ 2 ^ 40
          ∧ 60 ≤ p.softAge ∧ p.softAge ≤ 2592000 ∧ p.softAge ≤ p.hardAge ∧ p.hardAge ≤ 2592000
          ∧ 100 ≤ p.grace ∧ p.grace ≤ 60000)
        ∧ (p.keepalive ≤ 300 ∧ 3 ≤ p.silence ∧ p.silence ≤ 3600 ∧ 1 ≤ p.interval ∧ p.interval ≤ 60
          ∧ p.authThreshold ≤ 65535 ∧ p.replayThreshold ≤ 65535 ∧ p.epochThreshold ≤ 65535
          ∧ 1 ≤ p.persistence ∧ p.persistence ≤ 8)
        ∧ 1 ≤ p.holdTime ∧ p.holdTime ≤ 600 ∧ p.retryLimit ≤ 7 ∧ p.report.tunnelFailed = true := by
    intro p
    simp only [Bool.and_eq_true, Profile.keysOk_iff, Profile.conditionOk_iff, Profile.faultsOk_iff]
    exact ⟨fun ⟨⟨⟨keys, condition⟩, faults⟩, report⟩ =>
        ⟨by omega, by omega, faults.1, faults.2.1, faults.2.2, report⟩,
      fun ⟨keys, condition, least, most, limit, report⟩ =>
        ⟨⟨⟨by omega, by omega⟩, least, most, limit⟩, report⟩⟩
  simp only [Items.ok, Bool.and_eq_true, List.all_eq_true, profile, Pattern.ok_iff, anyActive_iff, Marks.ok_iff,
    within, decide_eq_true_eq, Nat.zero_le, true_and, Config.profileCount, and_assoc]

theorem Image.passes_iff (i : Image) : i.passes = true ↔ i.checkMatch = true ∧ i.items.ok = true := by
  simp [Image.passes]

theorem exec_loadComplete (s : State) : exec .loadComplete s = s.to s.dev.loadEnds := rfl

/-- Settles O5. -/
theorem loadCompletionPutsTheImageIntoUse : Obligations.LoadCompletionPutsTheImageIntoUse := by
  intro s d use ready x inRange
  have passes : s.dev.image.passes = true ↔ s.dev.image.checkMatch = true ∧ inRange :=
    (Image.passes_iff _).trans (and_congr_right fun _ => x.ok_iff)
  rw [exec_loadComplete]
  unfold Device.loadEnds
  by_cases idle : s.dev.loading = false
  · rw [if_pos idle, idle, if_neg Bool.false_ne_true]
    rfl
  · rw [if_neg idle, if_pos (by simpa using idle)]
    by_cases good : s.dev.image.passes = true
    · rw [if_pos (passes.mp good)]
      exact congrArg s.to (if_pos good)
    · rw [if_neg fun h => good (passes.mpr h)]
      exact congrArg s.to (if_neg good)

/-! ### Saves -/

/-- The device settings that a SAVE_SETTINGS copies, by its choice (R183). -/
theorem Request.savedSettings_eq (q : Request) (marks : Marks) (lowMark : Nat) (report : DeviceSet) :
    let choice := q.num 0 1
    let given : Marks := ⟨q.num 1 2, q.num 3 2, q.num 5 4, q.num 9 1⟩
    let set := q.num 12 1
    let inRange := 2 ≤ given.high ∧ given.high ≤ 384 ∧ given.low < given.high ∧ 100 ≤ given.rescueLimit
      ∧ given.rescueLimit ≤ 100000 ∧ 1 ≤ given.rescueBatch ∧ given.rescueBatch ≤ 64 ∧ q.num 10 2 ≤ 1024 ∧ set < 16
    q.savedSettings marks lowMark report =
      if 1 < choice ∨ (choice = 1 ∧ ¬ inRange) then none
      else if choice = 0 then some (marks, lowMark, report)
      else some (given, q.num 10 2, ⟨set.testBit 0, set.testBit 1, set.testBit 2, set.testBit 3⟩) := by
  intro choice given set inRange
  unfold Request.savedSettings
  split
  next keep =>
    rw [if_neg (by simp only [choice, keep]; omega), if_pos (show choice = 0 from keep)]
  next replace_ =>
    have is : choice = 1 := replace_
    have one : (1 < choice ∨ (choice = 1 ∧ ¬ inRange)) ↔ ¬ inRange := by
      rw [is]
      simp
    rw [ite_congr_iff one rfl rfl, if_neg (show ¬ choice = 0 by omega)]
    have range : inRange ↔ (given.ok = true ∧ within 0 1024 (q.num 10 2) = true) ∧ set < 16 := by
      rw [Marks.ok_iff]
      simp only [within, Nat.zero_le, decide_true, Bool.true_and, decide_eq_true_eq, inRange, and_assoc]
    simp only [range, deviceSetOf]
    by_cases named : set < 16
    · rw [if_pos (show q.num 12 1 < 16 from named)]
      by_cases good : given.ok = true ∧ within 0 1024 (q.num 10 2) = true
      · rw [if_neg (not_not_intro ⟨good, named⟩)]
        exact if_pos good
      · rw [if_pos fun h => good h.1]
        exact if_neg good
    · rw [if_neg (show ¬ q.num 12 1 < 16 from named), if_pos fun h => named h.2]
  next notKeep notReplace =>
    have : 1 < choice := by
      have : choice ≠ 0 := notKeep
      have : choice ≠ 1 := notReplace
      omega
    rw [if_pos (.inl this)]

theorem exec_saveComplete (s : State) : exec .saveComplete s = s.to s.dev.saveEnds := rfl

/-- Settles O6. -/
theorem savesReplaceTheImage : Obligations.SavesReplaceTheImage := by
  refine ⟨fun s q posed => ?_, fun s v saving => ?_, fun s saving => ?_⟩
  · intro d choice given lowMark report inRange copy
    rw [exec_posed (c := .saveSettings .operations) rfl posed]
    unfold Device.save
    rw [Request.savedSettings_eq]
    by_cases bad : 1 < choice ∨ (choice = 1 ∧ ¬ inRange)
    · rw [if_pos bad, if_pos bad]
      rfl
    · rw [if_neg bad, if_neg bad]
      have saves : ∀ x : Marks × Nat × DeviceSet, d.copyOf x = copy →
          s.to (d.conclude .operations q (((catalogue q.code).map (·.places)).getD 1)
            (match some x with
              | none => .refuse .badRequest
              | some x => if d.saving.isSome then .refuse .busy
                else .wait { d with saving := some ⟨d.copyOf x, some q.tag⟩ })) =
          if s.dev.saving.isSome then s.to (d.respond .operations q (.refusal .busy))
          else s.to { d with saving := some ⟨copy, some q.tag⟩ }.finish := by
        intro x is
        simp only [is, Device.conclude_ite, State.to_ite]
        rfl
      by_cases keep : choice = 0
      · rw [if_pos keep]
        exact saves _ (if_pos keep).symm
      · rw [if_neg keep]
        exact saves _ (if_neg keep).symm
  · rw [exec_saveComplete]
    unfold Device.saveEnds
    simp only [saving]
    cases v.owed <;> rfl
  · rw [exec_saveComplete]
    unfold Device.saveEnds
    rw [saving]
    rfl

end Sys2Proof.Machine
end

/-! PROOF. The invariants that every step keeps, while an event is under way: the frames that have left a queue and have not
ended, the tunnel that is being closed and the response places of a request under way are counted with the part, so that
each operation inside an event can be shown to keep every invariant (R5, R15, R51, R94, R100, R140, R173, R174). -/
section

namespace Sys2Proof.Machine

-- One theorem at a time, so that the threads of the whole text stay within its memory.
set_option Elab.async false

/-! ### What an event holds beside the part -/

/-- What an event under way holds: frames taken from their queues that have not ended; the frame in work where it has
ended, its key not yet released; the tunnel being closed, whose hold may still run; and for each port the places
reserved for which no response is owed. -/
structure Ghost where
  hand    : List Frame
  ended   : Option InWork
  closing : Option Nat
  spare   : Port → Nat

/-- Between events nothing is held. -/
def Ghost.idle : Ghost := ⟨[], none, none, fun _ => 0⟩

/-- The frame in work, unless it has ended. -/
def Ghost.inWork (g : Ghost) (d : Device) : Option InWork := if g.ended.isSome then none else d.engine.inWork

/-- The frames that have not ended. -/
def Ghost.held (g : Ghost) (d : Device) : List Frame :=
  g.hand ++ (d.engine.waiting ++ ((g.inWork d).map (·.frame)).toList)

/-- A response to the submission of a frame is owed on a port (R174). -/
def Frame.owes (f : Frame) (p : Port) : Bool := f.submittedBy p && !f.orphan

/-- The responses owed on a port that are not those of frames (R174). -/
def Device.owedElse (d : Device) : Port → Nat
  | .traffic => 0
  | .key => d.keys.jobs.countP fun j => j.owed.isSome
  | .operations =>
    ((List.range 480).countP fun t => (d.tunnel t).closeTag.isSome) + bit ((d.saving.bind (·.owed)).isSome)

/-- The responses owed on a port (R174). -/
def Ghost.owed (g : Ghost) (d : Device) (p : Port) : Nat := (g.held d).countP (·.owes p) + d.owedElse p

/-! ### The invariants while an event is under way -/

/-- The cells of the frames that have not ended (R5, R15, R24, R25). -/
structure FramesLaw (g : Ghost) (d : Device) : Prop where
  ok : d.store.Ok
  zero : d.store.FreeZero
  waiting : ∀ f ∈ d.engine.waiting, ∀ n ∈ f.cells, (d.store.cell n).state = .queued
  inWork : ∀ w, g.inWork d = some w → ∀ n ∈ w.frame.cells, (d.store.cell n).state = .inWork
  hand : ∀ f ∈ g.hand, ∀ n ∈ f.cells, (d.store.cell n).state = .queued ∨ (d.store.cell n).state = .inWork
  apart : ((g.held d).flatMap (·.cells)).Nodup
  fits : ∀ f ∈ g.held d, f.Fits

/-- The places of the responses owed (R98, R173, R174). -/
structure PlacesLaw (g : Ghost) (d : Device) : Prop where
  reserved : ∀ p, g.owed d p + g.spare p ≤ (d.port p).reserved
  room : ∀ p, (d.port p).responses.length + (d.port p).reserved ≤ 32
  tags : ∀ t, 480 ≤ t → (d.tunnel t).closeTag = none
  inbound : ∀ f ∈ g.held d, ∀ b, f.flow = .inbound b → f.party = .trafficPort

/-- The retry queue (R140, R141); the hold of a tunnel being closed may still run. -/
structure RetryLaw (g : Ghost) (d : Device) : Prop where
  nodup : d.proofs.retry.Nodup
  member : ∀ t ∈ d.proofs.retry, (d.tunnel t).state = .isolated ∧ (d.tunnel t).holdDeadline = none
  running : ∀ r, d.proofs.running = some r → r.purpose = .retry →
    (d.tunnel r.tunnel).state = .isolated ∧ (d.tunnel r.tunnel).holdDeadline = none ∧ r.tunnel ∉ d.proofs.retry
  hold : ∀ t, (d.tunnel t).holdDeadline.isSome = true → (d.tunnel t).state = .isolated ∨ g.closing = some t
  isolated : ∀ t, (d.tunnel t).state = .isolated →
    (d.tunnel t).holdDeadline.isSome = true ∨ t ∈ d.proofs.retry
      ∨ ∃ r, d.proofs.running = some r ∧ r.purpose = .retry ∧ r.tunnel = t
  beyond : ∀ t, 480 ≤ t → (d.tunnel t).state = .empty
  closing : ∀ t, g.closing = some t → (d.tunnel t).state = .closing

/-- The key store (R51, R54, R56, R61, R69). -/
structure KeysLaw (d : Device) : Prop where
  used : ∀ e, d.keys.entry e ≠ .free ↔ ∃ t s k, d.Holds t s k ∧ k.entry = e
  apart : ∀ t s k u r m, d.Holds t s k → d.Holds u r m → k.entry = m.entry → t = u ∧ s = r
  below : ∀ t s k, d.Holds t s k → k.entry < 1024
  job : ∀ j ∈ d.keys.jobs, ∃ n, (d.tunnel j.tunnel).next = some n ∧ n.ready = false ∧ n.key.epoch = j.epoch
    ∧ n.key.entry = j.entry
  jobs : (d.keys.jobs.map (·.tunnel)).Nodup
  deriving_ : ∀ t n, (d.tunnel t).next = some n → n.ready = false →
    n.key.bound = false ∧ ∃ j ∈ d.keys.jobs, j.tunnel = t
  flight : ∀ t, (d.tunnel t).inDerivation = true ↔ ∃ n, (d.tunnel t).next = some n ∧ n.ready = false
  bound : ∀ t s k, d.Holds t s k →
    (k.bound = true ↔ ∃ w, d.engine.inWork = some w ∧ w.frame.tunnel = t ∧ w.entry = k.entry)
  work : ∀ w, d.engine.inWork = some w → ∃ s k, d.Holds w.frame.tunnel s k ∧ k.entry = w.entry
  pending : ∀ t s k, d.Holds t s k → k.retirePending = true → k.bound = true

/-- The key store, and the frame in work that has ended. -/
structure BoundLaw (g : Ghost) (d : Device) : Prop where
  keys : KeysLaw d
  ended : ∀ w, g.ended = some w → d.engine.inWork = some w

theorem keysLaw_iff (d : Device) : KeysLaw d ↔ d.KeysKept :=
  ⟨fun ⟨h1, h2, h3, h4, h5, h6, h7, h8, h9, h10⟩ => ⟨h1, h2, h3, h4, h5, h6, h7, h8, h9, h10⟩,
    fun ⟨h1, h2, h3, h4, h5, h6, h7, h8, h9, h10⟩ => ⟨h1, h2, h3, h4, h5, h6, h7, h8, h9, h10⟩⟩

theorem boundLaw_iff (d : Device) : BoundLaw .idle d ↔ d.KeysKept :=
  ⟨fun law => (keysLaw_iff d).mp law.keys, fun law => ⟨(keysLaw_iff d).mpr law, fun _ h => (nomatch h)⟩⟩

theorem retryLaw_iff (d : Device) : RetryLaw .idle d ↔ d.RetryKept := by
  constructor
  · rintro ⟨nodup, member, running, hold, isolated, beyond, -⟩
    exact ⟨nodup, member, running, fun t is => (hold t is).resolve_right fun h => (nomatch h), isolated, beyond⟩
  · rintro ⟨nodup, member, running, hold, isolated, beyond⟩
    exact ⟨nodup, member, running, fun t is => .inl (hold t is), isolated, beyond, fun _ h => (nomatch h)⟩

theorem framesLaw_iff (d : Device) : FramesLaw .idle d ↔ d.store.Ok ∧ d.store.FreeZero ∧ d.FramesHold := by
  constructor
  · rintro ⟨ok, zero, waiting, inWork, -, apart, fits⟩
    exact ⟨ok, zero, waiting, inWork, apart, fits⟩
  · rintro ⟨ok, zero, waiting, inWork, apart, fits⟩
    exact ⟨ok, zero, waiting, inWork, fun f is => absurd is List.not_mem_nil, apart, fits⟩

theorem placesLaw_iff (d : Device) : PlacesLaw .idle d ↔ d.PlacesKept := by
  have owed : ∀ p, Ghost.idle.owed d p = d.owed p := by
    have held : Ghost.idle.held d = d.engine.held := rfl
    intro p
    unfold Ghost.owed Device.owed Device.owedElse
    rw [held]
    cases p <;> simp [Frame.owes, Frame.submittedBy]
  constructor
  · rintro ⟨reserved, room, tags, inbound⟩
    exact ⟨fun p => ⟨owed p ▸ reserved p, room p⟩, tags, inbound⟩
  · rintro ⟨places, tags, inbound⟩
    exact ⟨fun p => (owed p).symm ▸ (places p).1, fun p => (places p).2, tags, inbound⟩

/-- From one moment of an event to another, every invariant is kept. -/
structure Keeps (g : Ghost) (a : Device) (h : Ghost) (b : Device) : Prop where
  frames : FramesLaw g a → FramesLaw h b
  places : PlacesLaw g a → PlacesLaw h b
  notices : a.NoticesKept → b.NoticesKept
  retry : RetryLaw g a → RetryLaw h b
  keys : BoundLaw g a → BoundLaw h b

namespace Keeps

theorem refl (g : Ghost) (d : Device) : Keeps g d g d := ⟨id, id, id, id, id⟩

theorem trans {g h i : Ghost} {a b c : Device} (m : Keeps g a h b) (n : Keeps h b i c) : Keeps g a i c :=
  ⟨fun x => n.frames (m.frames x), fun x => n.places (m.places x), fun x => n.notices (m.notices x),
    fun x => n.retry (m.retry x), fun x => n.keys (m.keys x)⟩

theorem ite {g h : Ghost} {c : Prop} [Decidable c] {a x y : Device} (hx : c → Keeps g a h x)
    (hy : ¬ c → Keeps g a h y) : Keeps g a h (if c then x else y) := by
  split
  · exact hx ‹_›
  · exact hy ‹_›

theorem foldl {g : Ghost} {α : Type} (f : Device → α → Device) (hf : ∀ d a, Keeps g d g (f d a)) (xs : List α) :
    ∀ d, Keeps g d g (xs.foldl f d) := by
  induction xs with
  | nil => exact refl g
  | cons x xs ih => exact fun d => (hf d x).trans (ih _)

end Keeps

/-! ### What the invariants depend on -/

/-- What the key store's invariant reads of a key. -/
structure KeyCore where
  entry   : Nat
  epoch   : Nat
  bound   : Bool
  pending : Bool

def KeyRecord.core (k : KeyRecord) : KeyCore := ⟨k.entry, k.epoch, k.bound, k.retirePending⟩

/-- What the key store's invariant reads of a tunnel stands. -/
structure Tunnel.SameKeys (x y : Tunnel) : Prop where
  flight : y.inDerivation = x.inDerivation := by rfl
  core : ∀ s, (y.key? s).map KeyRecord.core = (x.key? s).map KeyRecord.core := by exact fun _ => rfl
  ready : y.next.map (·.ready) = x.next.map (·.ready) := by rfl

/-- What the retry queue's invariant reads of a tunnel stands; a PROVISIONED tunnel may have entered service. -/
structure Tunnel.SameLife (x y : Tunnel) : Prop where
  state : y.state = x.state ∨ (x.state = .provisioned ∧ y.state = .inService) := by exact .inl rfl
  hold : y.holdDeadline = x.holdDeadline := by rfl

/-- A record on which no invariant has changed. -/
structure Tunnel.Alike (x y : Tunnel) : Prop where
  keys : x.SameKeys y := by exact {}
  life : x.SameLife y := by exact {}
  tag : y.closeTag = x.closeTag := by rfl

/-- The cells and the frames stand. -/
structure SameFrames (a b : Device) : Prop where
  store : b.store = a.store := by rfl
  control : b.engine.control = a.engine.control := by rfl
  settle : b.engine.settle = a.engine.settle := by rfl
  bulk : b.engine.bulk = a.engine.bulk := by rfl
  inWork : b.engine.inWork = a.engine.inWork := by rfl

def Job.core (j : Job) : Nat × Nat × Nat := (j.tunnel, j.epoch, j.entry)

/-- The keys, the jobs and what is bound stand. -/
structure SameKeys (a b : Device) : Prop where
  entry : ∀ e, b.keys.entry e = a.keys.entry e := by exact fun _ => rfl
  jobs : b.keys.jobs.map Job.core = a.keys.jobs.map Job.core := by rfl
  inWork : b.engine.inWork.map (fun w => (w.frame.tunnel, w.entry))
    = a.engine.inWork.map (fun w => (w.frame.tunnel, w.entry)) := by rfl
  tunnel : ∀ t, (a.tunnel t).SameKeys (b.tunnel t) := by exact fun _ => {}

def ProofRecord.core (r : ProofRecord) : Nat × Purpose := (r.tunnel, r.purpose)

/-- The retry queue, the running proof and the holds stand. -/
structure SameLife (a b : Device) : Prop where
  retry : b.proofs.retry = a.proofs.retry := by rfl
  running : b.proofs.running.map ProofRecord.core = a.proofs.running.map ProofRecord.core := by rfl
  tunnel : ∀ t, (a.tunnel t).SameLife (b.tunnel t) := by exact fun _ => {}

/-- The reserved places and what is owed but for frames stand, and no response is queued. -/
structure SamePlaces (a b : Device) : Prop where
  reserved : ∀ p, (b.port p).reserved = (a.port p).reserved := by exact fun _ => rfl
  responses : ∀ p, (b.port p).responses.length ≤ (a.port p).responses.length := by exact fun _ => Nat.le_refl _
  tags : ∀ t, (b.tunnel t).closeTag = (a.tunnel t).closeTag := by exact fun _ => rfl
  jobs : (b.keys.jobs.countP fun j => j.owed.isSome) = a.keys.jobs.countP fun j => j.owed.isSome := by rfl
  saving : (b.saving.bind (·.owed)).isSome = (a.saving.bind (·.owed)).isSome := by rfl

theorem SamePlaces.owedElse {a b : Device} (h : SamePlaces a b) (p : Port) : b.owedElse p = a.owedElse p := by
  cases p with
  | traffic => rfl
  | key => exact h.jobs
  | operations =>
    unfold Device.owedElse
    simp only [h.saving, h.tags]

theorem InWork.ext_core {a b : Option InWork}
    (h : b.map (fun w => (w.frame.tunnel, w.entry)) = a.map (fun w => (w.frame.tunnel, w.entry))) (t e : Nat) :
    (∃ w, b = some w ∧ w.frame.tunnel = t ∧ w.entry = e) ↔ ∃ w, a = some w ∧ w.frame.tunnel = t ∧ w.entry = e := by
  cases a <;> cases b <;> simp_all

theorem SameFrames.waiting {a b : Device} (h : SameFrames a b) : b.engine.waiting = a.engine.waiting := by
  unfold Engine.waiting
  rw [h.control, h.settle, h.bulk]

theorem SameFrames.held {a b : Device} (h : SameFrames a b) (g : Ghost) : g.held b = g.held a := by
  unfold Ghost.held Ghost.inWork
  rw [h.waiting, h.inWork]

theorem FramesLaw.congr {g : Ghost} {a b : Device} (h : SameFrames a b) (law : FramesLaw g a) : FramesLaw g b := by
  obtain ⟨ok, zero, waiting, inWork, hand, apart, fits⟩ := law
  have work : g.inWork b = g.inWork a := by
    unfold Ghost.inWork
    rw [h.inWork]
  refine ⟨h.store ▸ ok, h.store ▸ zero, ?_, ?_, ?_, h.held g ▸ apart, h.held g ▸ fits⟩
  · rw [h.waiting, h.store]
    exact waiting
  · rw [work, h.store]
    exact inWork
  · rw [h.store]
    exact hand

theorem PlacesLaw.congr {g : Ghost} {a b : Device} (h : SameFrames a b) (k : SamePlaces a b) (law : PlacesLaw g a) :
    PlacesLaw g b := by
  obtain ⟨reserved, room, tags, inbound⟩ := law
  have owed : ∀ p, g.owed b p = g.owed a p := by
    intro p
    unfold Ghost.owed
    rw [h.held, k.owedElse]
  refine ⟨fun p => ?_, fun p => ?_, fun t high => (k.tags t).trans (tags t high), h.held g ▸ inbound⟩
  · rw [owed, k.reserved]
    exact reserved p
  · have := k.responses p
    rw [k.reserved]
    exact Nat.le_trans (Nat.add_le_add_right this _) (room p)

theorem NoticesKept.congr {a b : Device} (h : SameFrames a b)
    (k : b.traffic.notices.length ≤ a.traffic.notices.length) (law : a.NoticesKept) : b.NoticesKept := by
  obtain ⟨places, bulk, held⟩ := law
  have generated : b.generatedReserved = a.generatedReserved := by
    unfold Device.generatedReserved
    rw [h.control, h.inWork]
  have same : b.engine.held = a.engine.held := h.held .idle
  refine ⟨?_, ?_, same ▸ held⟩
  · rw [generated]
    exact Nat.le_trans (Nat.add_le_add_right k _) places
  · rw [h.settle, h.bulk]
    exact bulk

theorem Tunnel.SameLife.isolated {x y : Tunnel} (h : x.SameLife y) : y.state = .isolated ↔ x.state = .isolated := by
  obtain same | ⟨before, after⟩ := h.state
  · rw [same]
  · rw [before, after]
    exact ⟨fun h => (nomatch h), fun h => (nomatch h)⟩

theorem RetryLaw.congr {g : Ghost} {a b : Device} (h : SameLife a b) (law : RetryLaw g a) : RetryLaw g b := by
  obtain ⟨nodup, member, running, hold, isolated, beyond, closing⟩ := law
  have hold_eq := fun t => (h.tunnel t).hold
  have isolated_iff := fun t => (h.tunnel t).isolated
  have run : ∀ (P : Nat → Purpose → Prop), (∃ r, b.proofs.running = some r ∧ P r.tunnel r.purpose)
      ↔ ∃ r, a.proofs.running = some r ∧ P r.tunnel r.purpose := by
    intro P
    have same := h.running
    cases of_a : a.proofs.running <;> cases of_b : b.proofs.running <;> simp_all [ProofRecord.core]
  refine ⟨h.retry ▸ nodup, fun t is => ?_, fun r is purpose => ?_, fun t is => ?_, fun t is => ?_, fun t high => ?_,
    fun t is => ?_⟩
  · rw [isolated_iff, hold_eq]
    exact member t (h.retry ▸ is)
  · obtain ⟨r', is', tunnel, purpose'⟩ := (run fun t p => t = r.tunnel ∧ p = .retry).mp ⟨r, is, rfl, purpose⟩
    rw [isolated_iff, hold_eq, h.retry, ← tunnel]
    exact running r' is' purpose'
  · rw [hold_eq] at is
    rw [isolated_iff]
    exact hold t is
  · rw [hold_eq, h.retry]
    refine (isolated t ((isolated_iff t).mp is)).imp_right (.imp_right fun runs => ?_)
    obtain ⟨r, is, purpose, tunnel⟩ := runs
    obtain ⟨r', is', purpose', tunnel'⟩ := (run fun u p => p = .retry ∧ u = t).mpr ⟨r, is, purpose, tunnel⟩
    exact ⟨r', is', purpose', tunnel'⟩
  · obtain same | ⟨before, -⟩ := (h.tunnel t).state
    · rw [same]
      exact beyond t high
    · rw [beyond t high] at before
      exact nomatch before
  · obtain same | ⟨before, -⟩ := (h.tunnel t).state
    · rw [same]
      exact closing t is
    · rw [closing t is] at before
      exact nomatch before

/-- A key of one part stands in the same slot of the other, with what the invariant reads of it. -/
theorem SameKeys.holds {a b : Device} (h : SameKeys a b) {t : Nat} {s : Slot} {k : KeyRecord} (is : b.Holds t s k) :
    ∃ k', a.Holds t s k' ∧ k'.core = k.core := by
  have core := (h.tunnel t).core s
  unfold Device.Holds at is ⊢
  rw [is] at core
  exact Option.map_eq_some_iff.mp core.symm

theorem SameKeys.symm {a b : Device} (h : SameKeys a b) : SameKeys b a where
  entry e := (h.entry e).symm
  jobs := h.jobs.symm
  inWork := h.inWork.symm
  tunnel t := ⟨(h.tunnel t).flight.symm, fun s => ((h.tunnel t).core s).symm, (h.tunnel t).ready.symm⟩

/-- A NEXT key of one part is that of the other, in what the invariant reads of it. -/
theorem SameKeys.next {a b : Device} (h : SameKeys a b) {t : Nat} {n : NextKey} (is : (b.tunnel t).next = some n) :
    ∃ n', (a.tunnel t).next = some n' ∧ n'.ready = n.ready ∧ n'.key.core = n.key.core := by
  have ready := (h.tunnel t).ready
  have core := (h.tunnel t).core .next
  unfold Tunnel.key? at core
  simp only [is, Option.map_some] at ready core
  obtain ⟨n', is', ready'⟩ := Option.map_eq_some_iff.mp ready.symm
  rw [is'] at core
  exact ⟨n', is', ready', (Option.some.inj core).symm⟩

theorem KeysLaw.congr {a b : Device} (h : SameKeys a b) (law : KeysLaw a) : KeysLaw b := by
  obtain ⟨used, apart, below, job, jobs, deriving_, flight, bound, work, pending⟩ := law
  have jobs_iff : ∀ P : Nat × Nat × Nat → Prop, (∃ j ∈ b.keys.jobs, P j.core) ↔ ∃ j ∈ a.keys.jobs, P j.core := by
    intro P
    have same := fun x => congrArg (x ∈ ·) h.jobs
    simp only [List.mem_map, eq_iff_iff] at same
    constructor
    · rintro ⟨j, is, p⟩
      obtain ⟨j', is', core⟩ := (same j.core).mp ⟨j, is, rfl⟩
      exact ⟨j', is', core ▸ p⟩
    · rintro ⟨j, is, p⟩
      obtain ⟨j', is', core⟩ := (same j.core).mpr ⟨j, is, rfl⟩
      exact ⟨j', is', core ▸ p⟩
  have entry_of : ∀ {k k' : KeyRecord}, k'.core = k.core → k'.entry = k.entry := fun c => congrArg KeyCore.entry c
  refine ⟨fun e => ?_, ?_, ?_, ?_, ?_, ?_, fun t => ?_, ?_, ?_, ?_⟩
  · rw [h.entry, used]
    constructor
    · rintro ⟨t, s, k, is, rfl⟩
      obtain ⟨k', is', core⟩ := h.symm.holds is
      exact ⟨t, s, k', is', entry_of core⟩
    · rintro ⟨t, s, k, is, rfl⟩
      obtain ⟨k', is', core⟩ := h.holds is
      exact ⟨t, s, k', is', entry_of core⟩
  · intro t s k u r m is is' same
    obtain ⟨k', isk, corek⟩ := h.holds is
    obtain ⟨m', ism, corem⟩ := h.holds is'
    exact apart t s k' u r m' isk ism ((entry_of corek).trans (same.trans (entry_of corem).symm))
  · intro t s k is
    obtain ⟨k', is', core⟩ := h.holds is
    exact entry_of core ▸ below t s k' is'
  · intro j is
    obtain ⟨j', is', core⟩ := (jobs_iff (· = j.core)).mp ⟨j, is, rfl⟩
    obtain ⟨n, next, ready, epoch, entry⟩ := job j' is'
    simp only [Job.core, Prod.mk.injEq] at core
    obtain ⟨tunnel, epoch', entry'⟩ := core
    obtain ⟨n', next', ready', core'⟩ := h.symm.next next
    rw [tunnel] at next'
    exact ⟨n', next', ready'.trans ready, (congrArg KeyCore.epoch core').trans (epoch.trans epoch'),
      (congrArg KeyCore.entry core').trans (entry.trans entry')⟩
  · have tunnels : b.keys.jobs.map (·.tunnel) = a.keys.jobs.map (·.tunnel) := by
      have := congrArg (List.map Prod.fst) h.jobs
      rwa [List.map_map, List.map_map] at this
    rw [tunnels]
    exact jobs
  · intro t n next ready
    obtain ⟨n', next', ready', core⟩ := h.next next
    obtain ⟨unbound, j, is, tunnel⟩ := deriving_ t n' next' (ready'.trans ready)
    obtain ⟨j', is', tunnel'⟩ := (jobs_iff (·.1 = t)).mpr ⟨j, is, tunnel⟩
    exact ⟨(congrArg KeyCore.bound core).symm.trans unbound, j', is', tunnel'⟩
  · rw [(h.tunnel t).flight, flight]
    constructor
    · rintro ⟨n, next, ready⟩
      obtain ⟨n', next', ready', -⟩ := h.symm.next next
      exact ⟨n', next', ready'.trans ready⟩
    · rintro ⟨n, next, ready⟩
      obtain ⟨n', next', ready', -⟩ := h.next next
      exact ⟨n', next', ready'.trans ready⟩
  · intro t s k is
    obtain ⟨k', is', core⟩ := h.holds is
    rw [InWork.ext_core h.inWork, ← entry_of core, ← bound t s k' is']
    exact Bool.coe_iff_coe.mpr (congrArg KeyCore.bound core).symm
  · intro w is
    obtain ⟨w', is', tunnel, entry⟩ := (InWork.ext_core h.inWork w.frame.tunnel w.entry).mp ⟨w, is, rfl, rfl⟩
    obtain ⟨s, k, holds, same⟩ := work w' is'
    obtain ⟨k', holds', core⟩ := h.symm.holds holds
    exact ⟨s, k', tunnel ▸ holds', (entry_of core).trans (same.trans entry)⟩
  · intro t s k is
    obtain ⟨k', is', core⟩ := h.holds is
    intro retire
    exact (congrArg KeyCore.bound core).symm.trans
      (pending t s k' is' ((congrArg KeyCore.pending core).trans retire))

theorem BoundLaw.change {g : Ghost} {a b : Device} (law : BoundLaw g a) (inWork : b.engine.inWork = a.engine.inWork)
    (keys : KeysLaw a → KeysLaw b) : BoundLaw g b :=
  ⟨keys law.keys, fun w is => inWork.trans (law.ended w is)⟩

theorem BoundLaw.congr {g : Ghost} {a b : Device} (inWork : b.engine.inWork = a.engine.inWork) (h : SameKeys a b)
    (law : BoundLaw g a) : BoundLaw g b := law.change inWork (.congr h)

theorem BoundLaw.ghost {g h : Ghost} {d : Device} (law : BoundLaw g d) (ended : h.ended = g.ended := by rfl) :
    BoundLaw h d :=
  ⟨law.keys, ended ▸ law.ended⟩

end Sys2Proof.Machine
end

/-! PROOF. The steps of which an event is made, and what each keeps: frames that join a queue, leave it, enter work and end,
cells that change hands, responses that are queued (R5, R15, R21, R96, R97, R100, R173, R174). -/
section

namespace Sys2Proof.Machine

-- One theorem at a time, so that the threads of the whole text stay within its memory.
set_option Elab.async false

/-! ### Updates on which no invariant depends -/

/-- A change of fields that no invariant reads. -/
theorem Keeps.aside {g : Ghost} {a b : Device} (frames : SameFrames a b := by exact {})
    (places : SamePlaces a b := by exact {})
    (notices : b.traffic.notices.length ≤ a.traffic.notices.length := by exact Nat.le_refl _)
    (life : SameLife a b := by exact {}) (keys : SameKeys a b := by exact {}) : Keeps g a g b :=
  ⟨.congr frames, .congr frames places, NoticesKept.congr frames notices, .congr life,
    .congr frames.inWork keys⟩

/-- A change that lies in the tunnels. -/
theorem Keeps.tunnels {g : Ghost} {a b : Device} (h : ∀ t, (a.tunnel t).Alike (b.tunnel t))
    (frames : SameFrames a b := by exact {}) (port : ∀ p, b.port p = a.port p := by exact fun _ => rfl)
    (keys : b.keys = a.keys := by rfl) (proofs : b.proofs = a.proofs := by rfl)
    (saving : b.saving = a.saving := by rfl) : Keeps g a g b := by
  refine .aside frames ⟨fun p => congrArg PortState.reserved (port p), fun p => ?_, fun t => (h t).tag, ?_, ?_⟩ ?_
    ⟨by rw [proofs], by rw [proofs], fun t => (h t).life⟩
    ⟨fun e => by rw [keys], by rw [keys], by rw [frames.inWork], fun t => (h t).keys⟩
  · exact Nat.le_of_eq (by rw [port])
  · rw [keys]
  · rw [saving]
  · have same : b.traffic = a.traffic := port .traffic
    exact Nat.le_of_eq (by rw [same])

theorem Tunnel.Alike.refl (x : Tunnel) : x.Alike x := {}

theorem Keeps.modTunnel {g : Ghost} (d : Device) (t : Nat) (f : Tunnel → Tunnel)
    (h : (d.tunnel t).Alike (f (d.tunnel t))) : Keeps g d g (d.modTunnel t f) := by
  refine .tunnels fun u => ?_
  rw [Device.tunnel_modTunnel]
  split
  next is => exact is ▸ h
  next => exact .refl _

/-! ### Frames and cells -/

theorem Ghost.mem_held_waiting {g : Ghost} {d : Device} {f : Frame} (h : f ∈ d.engine.waiting) : f ∈ g.held d :=
  List.mem_append_right _ (List.mem_append_left _ h)

theorem Ghost.mem_held_hand {g : Ghost} {d : Device} {f : Frame} (h : f ∈ g.hand) : f ∈ g.held d :=
  List.mem_append_left _ h

theorem Ghost.mem_held_inWork {g : Ghost} {d : Device} {w : InWork} (h : g.inWork d = some w) : w.frame ∈ g.held d := by
  refine List.mem_append_right _ (List.mem_append_right _ ?_)
  rw [h]
  exact List.mem_singleton_self _

theorem FramesLaw.state_held {g : Ghost} {d : Device} (law : FramesLaw g d) {f : Frame} (h : f ∈ g.held d) {n : Nat}
    (is : n ∈ f.cells) : (d.store.cell n).state = .queued ∨ (d.store.cell n).state = .inWork := by
  obtain hand | waiting | work := List.mem_append.mp h |>.imp_right List.mem_append.mp
  · exact law.hand f hand n is
  · exact .inl (law.waiting f waiting n is)
  · obtain ⟨w, same, rfl⟩ := Option.map_eq_some_iff.mp (Option.mem_toList.mp work)
    exact .inr (law.inWork w same n is)

/-- A change of the cell store that leaves the cells of frames in their states. -/
theorem FramesLaw.store {g : Ghost} {a b : Device} (law : FramesLaw g a) (ok : b.store.Ok) (zero : b.store.FreeZero)
    (waiting : b.engine.waiting = a.engine.waiting) (inWork : b.engine.inWork = a.engine.inWork)
    (states : ∀ n, (a.store.cell n).state = .queued ∨ (a.store.cell n).state = .inWork →
      (b.store.cell n).state = (a.store.cell n).state) : FramesLaw g b := by
  have work : g.inWork b = g.inWork a := by
    unfold Ghost.inWork
    rw [inWork]
  have held : g.held b = g.held a := by
    unfold Ghost.held
    rw [waiting, work]
  refine ⟨ok, zero, fun f is n mem => ?_, fun w is n mem => ?_, fun f is n mem => ?_, held ▸ law.apart,
    held ▸ law.fits⟩
  · have state := law.waiting f (waiting ▸ is) n mem
    rw [states n (.inl state), state]
  · have state := law.inWork w (work ▸ is) n mem
    rw [states n (.inr state), state]
  · have state := law.hand f is n mem
    rw [states n state]
    exact state

/-- A frame joins a queue: its cells were no frame's, and are QUEUED. -/
theorem FramesLaw.join {g : Ghost} {a b : Device} {f : Frame} (law : FramesLaw g a) (ok : b.store.Ok)
    (zero : b.store.FreeZero) (waiting : b.engine.waiting.Perm (f :: a.engine.waiting))
    (inWork : b.engine.inWork = a.engine.inWork)
    (fresh : ∀ n ∈ f.cells, ¬ ((a.store.cell n).state = .queued ∨ (a.store.cell n).state = .inWork))
    (queued : ∀ n ∈ f.cells, (b.store.cell n).state = .queued)
    (others : ∀ n, n ∉ f.cells → (b.store.cell n).state = (a.store.cell n).state)
    (distinct : f.cells.Nodup) (fits : f.Fits) : FramesLaw g b := by
  have work : g.inWork b = g.inWork a := by
    unfold Ghost.inWork
    rw [inWork]
  have held : (g.held b).Perm (f :: g.held a) := by
    unfold Ghost.held
    rw [work]
    exact ((waiting.append_right _).append_left _).trans List.perm_middle
  have stands : ∀ n, (a.store.cell n).state = .queued ∨ (a.store.cell n).state = .inWork →
      (b.store.cell n).state = (a.store.cell n).state :=
    fun n state => others n fun mem => fresh n mem state
  refine ⟨ok, zero, fun f' is n mem => ?_, fun w is n mem => ?_, fun f' is n mem => ?_, ?_, fun f' is => ?_⟩
  · obtain rfl | old := List.mem_cons.mp (waiting.mem_iff.mp is)
    · exact queued n mem
    · have state := law.waiting f' old n mem
      rw [stands n (.inl state), state]
  · have state := law.inWork w (work ▸ is) n mem
    rw [stands n (.inr state), state]
  · have state := law.hand f' is n mem
    rw [stands n state]
    exact state
  · refine (held.flatMap_right _).nodup_iff.mpr ?_
    rw [List.flatMap_cons]
    refine nodup_append_iff.mpr ⟨distinct, law.apart, fun n mem old => ?_⟩
    obtain ⟨f', is, mem'⟩ := List.mem_flatMap.mp old
    exact fresh n mem (law.state_held is mem')
  · obtain rfl | old := List.mem_cons.mp (held.mem_iff.mp is)
    · exact fits
    · exact law.fits f' old

/-- Frames leave their queues, and have not ended. -/
theorem FramesLaw.pick {g : Ghost} {a b : Device} {gone : List Frame} (law : FramesLaw g a)
    (store : b.store = a.store) (waiting : a.engine.waiting.Perm (gone ++ b.engine.waiting))
    (inWork : b.engine.inWork = a.engine.inWork) : FramesLaw { g with hand := gone ++ g.hand } b := by
  have work : ({ g with hand := gone ++ g.hand } : Ghost).inWork b = g.inWork a := by
    unfold Ghost.inWork
    rw [inWork]
  have held : (({ g with hand := gone ++ g.hand } : Ghost).held b).Perm (g.held a) := by
    unfold Ghost.held
    rw [work]
    refine ((List.perm_append_comm (l₁ := gone) (l₂ := g.hand)).append_right _).trans ?_
    rw [List.append_assoc, ← List.append_assoc gone]
    exact (waiting.symm.append_right _).append_left _
  refine ⟨store ▸ law.ok, store ▸ law.zero, fun f is n mem => ?_, fun w is n mem => ?_, fun f is n mem => ?_,
    (held.flatMap_right _).nodup_iff.mpr law.apart, fun f is => law.fits f (held.mem_iff.mp is)⟩
  · rw [store]
    exact law.waiting f (waiting.mem_iff.mpr (List.mem_append_right _ is)) n mem
  · rw [store]
    exact law.inWork w (work ▸ is) n mem
  · rw [store]
    obtain new | old := List.mem_append.mp is
    · exact .inl (law.waiting f (waiting.mem_iff.mpr (List.mem_append_left _ new)) n mem)
    · exact law.hand f old n mem

/-- A frame ends: its cells pass on, and those of no other frame do. -/
theorem FramesLaw.ended {g : Ghost} {a b : Device} {f : Frame} {rest : List Frame}
    (law : FramesLaw { g with hand := f :: rest } a) (ok : b.store.Ok) (zero : b.store.FreeZero)
    (waiting : b.engine.waiting = a.engine.waiting) (inWork : b.engine.inWork = a.engine.inWork)
    (others : ∀ n, n ∉ f.cells → (b.store.cell n).state = (a.store.cell n).state) :
    FramesLaw { g with hand := rest } b := by
  have work : ({ g with hand := rest } : Ghost).inWork b = ({ g with hand := f :: rest } : Ghost).inWork a := by
    unfold Ghost.inWork
    rw [inWork]
  have held : ({ g with hand := f :: rest } : Ghost).held a = f :: ({ g with hand := rest } : Ghost).held b := by
    unfold Ghost.held
    rw [work, waiting]
    rfl
  have apart := law.apart
  rw [held, List.flatMap_cons] at apart
  obtain ⟨-, apart', away⟩ := nodup_append_iff.mp apart
  have other : ∀ f' ∈ ({ g with hand := rest } : Ghost).held b, ∀ n ∈ f'.cells,
      (b.store.cell n).state = (a.store.cell n).state :=
    fun f' is n mem => others n fun mem' => away mem' (List.mem_flatMap.mpr ⟨f', is, mem⟩)
  refine ⟨ok, zero, fun f' is n mem => ?_, fun w is n mem => ?_, fun f' is n mem => ?_, apart',
    fun f' is => law.fits f' (held ▸ List.mem_cons_of_mem _ is)⟩
  · rw [other f' (Ghost.mem_held_waiting is) n mem]
    exact law.waiting f' (waiting ▸ is) n mem
  · rw [other w.frame (Ghost.mem_held_inWork is) n mem]
    exact law.inWork w (work ▸ is) n mem
  · rw [other f' (Ghost.mem_held_hand is) n mem]
    exact law.hand f' (List.mem_cons_of_mem _ is) n mem

/-- The frame in work is to end; its key is released later. -/
theorem FramesLaw.detach {g : Ghost} {d : Device} {w : InWork} (law : FramesLaw g d) (busy : g.inWork d = some w) :
    FramesLaw { g with hand := w.frame :: g.hand, ended := some w } d := by
  have held : (({ g with hand := w.frame :: g.hand, ended := some w } : Ghost).held d).Perm (g.held d) := by
    unfold Ghost.held
    rw [busy, Option.map_some, Option.toList_some, ← List.append_assoc g.hand]
    refine List.Perm.trans ?_ (List.perm_append_singleton _ _).symm
    exact .of_eq (congrArg (w.frame :: ·) (congrArg (g.hand ++ ·) (List.append_nil _)))
  refine ⟨law.ok, law.zero, law.waiting, fun _ h => (nomatch h), fun f is n mem => ?_,
    (held.flatMap_right _).nodup_iff.mpr law.apart, fun f is => law.fits f (held.mem_iff.mp is)⟩
  obtain rfl | old := List.mem_cons.mp is
  · exact .inr (law.inWork w busy n mem)
  · exact law.hand f old n mem

/-- The frame in work has ended and leaves the engine. -/
theorem FramesLaw.leave {g : Ghost} {a b : Device} {w : InWork} (law : FramesLaw { g with ended := some w } a)
    (store : b.store = a.store) (waiting : b.engine.waiting = a.engine.waiting) (idle : b.engine.inWork = none) :
    FramesLaw { g with ended := none } b := by
  have none_ : ({ g with ended := none } : Ghost).inWork b = none := idle
  have held : ({ g with ended := none } : Ghost).held b = ({ g with ended := some w } : Ghost).held a := by
    unfold Ghost.held
    rw [waiting, none_]
    rfl
  refine ⟨store ▸ law.ok, store ▸ law.zero, ?_, fun _ h => ?_, ?_, held ▸ law.apart, held ▸ law.fits⟩
  · rw [waiting, store]
    exact law.waiting
  · rw [none_] at h
    exact nomatch h
  · rw [store]
    exact law.hand

/-- A frame leaves its queue and enters work. -/
theorem FramesLaw.enter {g : Ghost} {a b : Device} {w : InWork} (law : FramesLaw g a) (undone : g.ended = none)
    (idle : a.engine.inWork = none) (waiting : a.engine.waiting.Perm (w.frame :: b.engine.waiting))
    (busy : b.engine.inWork = some w) (store : b.store = a.store.pass .inWork w.frame.cells) : FramesLaw g b := by
  have none_ : g.inWork a = none := by
    unfold Ghost.inWork
    rw [idle, undone]
    rfl
  have work : g.inWork b = some w := by
    unfold Ghost.inWork
    rw [busy, undone]
    rfl
  have held : (g.held b).Perm (g.held a) := by
    unfold Ghost.held
    rw [work, none_]
    refine List.Perm.append_left _ ?_
    rw [Option.map_some, Option.toList_some, Option.map_none, Option.toList_none, List.append_nil]
    exact (List.perm_append_singleton _ _).trans waiting.symm
  have cell : ∀ n, (b.store.cell n).state =
      if n ∈ w.frame.cells ∧ (a.store.cell n).state ≠ .free then .inWork else (a.store.cell n).state := by
    intro n
    rw [store, CellStore.cell_pass _ _ (by decide)]
    split <;> rfl
  have mem_work : w.frame ∈ a.engine.waiting := waiting.mem_iff.mpr (List.mem_cons_self ..)
  refine ⟨store ▸ law.ok.pass _ _ (by decide), ?_, fun f is n mem => ?_, fun v is n mem => ?_, fun f is n mem => ?_,
    (held.flatMap_right _).nodup_iff.mpr law.apart, fun f is => law.fits f (held.mem_iff.mp is)⟩
  · intro n k free small
    rw [store, CellStore.bytes_pass]
    refine law.zero n k ?_ small
    rw [cell] at free
    split at free
    · exact nomatch free
    · exact free
  · have state := law.waiting f (waiting.mem_iff.mpr (List.mem_cons_of_mem _ is)) n mem
    have apart : ((w.frame :: b.engine.waiting).flatMap (·.cells)).Nodup := by
      have all := law.apart
      unfold Ghost.held at all
      rw [List.flatMap_append, List.flatMap_append] at all
      obtain ⟨-, rest, -⟩ := nodup_append_iff.mp all
      obtain ⟨queued, -, -⟩ := nodup_append_iff.mp rest
      exact (waiting.flatMap_right _).nodup_iff.mp queued
    rw [List.flatMap_cons] at apart
    obtain ⟨-, -, away⟩ := nodup_append_iff.mp apart
    rw [cell, if_neg fun h => away h.1 (List.mem_flatMap.mpr ⟨f, is, mem⟩)]
    exact state
  · rw [work] at is
    cases is
    have state := law.waiting w.frame mem_work n mem
    rw [cell, if_pos ⟨mem, by rw [state]; exact fun h => (nomatch h)⟩]
  · have state := law.hand f is n mem
    rw [cell]
    split
    · exact .inr rfl
    · exact state

end Sys2Proof.Machine
end

/-! PROOF. The steps of which an event is made, and that each keeps every invariant: places and responses, frames that the
part builds or a port submits, frames that leave, enter work and end (R15, R19, R21, R96, R97, R100, R173, R174). -/
section

namespace Sys2Proof.Machine

-- One theorem at a time, so that the threads of the whole text stay within its memory.
set_option Elab.async false

/-! ### Ghosts that an invariant does not see -/

theorem FramesLaw.ghost {g h : Ghost} {d : Device} (law : FramesLaw g d) (hand : h.hand = g.hand := by rfl)
    (ended : h.ended = g.ended := by rfl) : FramesLaw h d := by
  obtain ⟨ok, zero, waiting, inWork, held, apart, fits⟩ := law
  have work : h.inWork d = g.inWork d := by
    unfold Ghost.inWork
    rw [ended]
  have same : h.held d = g.held d := by
    unfold Ghost.held
    rw [hand, work]
  exact ⟨ok, zero, waiting, work ▸ inWork, hand ▸ held, same ▸ apart, same ▸ fits⟩

theorem RetryLaw.ghost {g h : Ghost} {d : Device} (law : RetryLaw g d) (closing : h.closing = g.closing := by rfl) :
    RetryLaw h d := by
  obtain ⟨nodup, member, running, hold, isolated, beyond, closed⟩ := law
  exact ⟨nodup, member, running, closing ▸ hold, isolated, beyond, closing ▸ closed⟩

/-- The law of places after a change: the reserved places that no response is owed for do not fall below those that the
ghost counts. -/
theorem PlacesLaw.change {g h : Ghost} {a b : Device} (law : PlacesLaw g a)
    (slack : ∀ p, h.owed b p + h.spare p + (a.port p).reserved ≤ g.owed a p + g.spare p + (b.port p).reserved)
    (room : ∀ p, (b.port p).responses.length + (b.port p).reserved
      ≤ (a.port p).responses.length + (a.port p).reserved)
    (tags : ∀ t, 480 ≤ t → (a.tunnel t).closeTag = none → (b.tunnel t).closeTag = none)
    (inbound : ∀ f ∈ h.held b, f ∈ g.held a ∨ ∀ c, f.flow = .inbound c → f.party = .trafficPort) :
    PlacesLaw h b := by
  refine ⟨fun p => ?_, fun p => Nat.le_trans (room p) (law.room p), fun t high => tags t high (law.tags t high),
    fun f is c flow => ?_⟩
  · have := slack p
    have := law.reserved p
    omega
  · obtain old | new := inbound f is
    · exact law.inbound f old c flow
    · exact new c flow

/-! ### Steps in one component -/

/-- A change of the keys. -/
theorem Keeps.keysOnly {g : Ghost} {a b : Device} (keys : KeysLaw a → KeysLaw b)
    (frames : SameFrames a b := by exact {}) (places : SamePlaces a b := by exact {})
    (notices : b.traffic.notices.length ≤ a.traffic.notices.length := by exact Nat.le_refl _)
    (life : SameLife a b := by exact {}) : Keeps g a g b :=
  ⟨.congr frames, .congr frames places, NoticesKept.congr frames notices, .congr life, (·.change frames.inWork keys)⟩

/-- A change of the retry queue, the running proof or the holds. -/
theorem Keeps.lifeOnly {g : Ghost} {a b : Device} (life : RetryLaw g a → RetryLaw g b)
    (frames : SameFrames a b := by exact {}) (places : SamePlaces a b := by exact {})
    (notices : b.traffic.notices.length ≤ a.traffic.notices.length := by exact Nat.le_refl _)
    (keys : SameKeys a b := by exact {}) : Keeps g a g b :=
  ⟨.congr frames, .congr frames places, NoticesKept.congr frames notices, life, .congr frames.inWork keys⟩

/-- A change of the cell store that leaves the cells of frames in their states. -/
theorem Keeps.storeOnly {g : Ghost} {a b : Device} (frames : FramesLaw g a → FramesLaw g b)
    (control : b.engine.control = a.engine.control := by rfl) (settle : b.engine.settle = a.engine.settle := by rfl)
    (bulk : b.engine.bulk = a.engine.bulk := by rfl) (inWork : b.engine.inWork = a.engine.inWork := by rfl)
    (places : SamePlaces a b := by exact {})
    (notices : b.traffic.notices.length ≤ a.traffic.notices.length := by exact Nat.le_refl _)
    (life : SameLife a b := by exact {}) (keys : SameKeys a b := by exact {}) : Keeps g a g b := by
  have same : SameFrames { a with store := b.store } b := ⟨rfl, control, settle, bulk, inWork⟩
  refine ⟨frames, fun law => ?_, fun law => ?_, .congr life, .congr inWork keys⟩
  · have before : PlacesLaw g { a with store := b.store } := ⟨law.reserved, law.room, law.tags, law.inbound⟩
    exact before.congr same ⟨places.reserved, places.responses, places.tags, places.jobs, places.saving⟩
  · exact NoticesKept.congr same notices (a := { a with store := b.store }) law

/-! ### Responses -/

/-- Places reserved for which no response is owed are given up. -/
theorem Keeps.waive {g : Ghost} (d : Device) {s : Port → Nat} (less : ∀ p, s p ≤ g.spare p) :
    Keeps g d { g with spare := s } d := by
  refine ⟨(·.ghost), fun law => law.change (fun p => ?_) (fun _ => Nat.le_refl _) (fun _ _ h => h) fun f is => .inl is,
    id, (·.ghost), (·.ghost)⟩
  have := less p
  show g.owed d p + s p + _ ≤ _
  omega

/-- A change of a port: the places reserved, and the room of its response queue. -/
theorem Keeps.changePort {g : Ghost} (d : Device) (p : Port) (f : PortState → PortState) {s : Port → Nat}
    (others : ∀ q, q ≠ p → s q = g.spare q)
    (kept : PlacesLaw g d → g.owed d p + s p ≤ (f (d.port p)).reserved
      ∧ (f (d.port p)).responses.length + (f (d.port p)).reserved ≤ 32)
    (notices : (f (d.port p)).notices.length ≤ (d.port p).notices.length ∨ p ≠ .traffic) :
    Keeps g d { g with spare := s } (d.modPort p f) := by
  have frames : SameFrames d (d.modPort p f) := by
    constructor <;> simp
  have tunnel : ∀ t, (d.modPort p f).tunnel t = d.tunnel t := fun t =>
    congrArg (SMap.get Tunnel.initial · t) (d.modPort_tunnels ..)
  have owed : ∀ q, g.owed (d.modPort p f) q = g.owed d q := by
    intro q
    unfold Ghost.owed Device.owedElse
    rw [frames.held]
    simp only [tunnel, Device.modPort_keys, Device.modPort_saving]
  refine ⟨fun law => (law.congr frames).ghost, fun law => ⟨fun q => ?_, fun q => ?_,
    fun t high => (tunnel t).symm ▸ law.tags t high, ?_⟩, ?_, fun law => ?_,
    fun law => (law.congr frames.inWork ⟨fun e => by simp, by simp, by simp, fun t => (tunnel t).symm ▸ {}⟩).ghost⟩
  · have places := law.reserved q
    show g.owed _ q + s q ≤ _
    rw [owed, Device.port_modPort]
    by_cases is : q = p
    · subst is
      rw [if_pos rfl]
      exact (kept law).1
    · rw [if_neg is, others q is]
      exact places
  · rw [Device.port_modPort]
    by_cases is : q = p
    · subst is
      rw [if_pos rfl]
      exact (kept law).2
    · rw [if_neg is]
      exact law.room q
  · exact (frames.held g).symm ▸ law.inbound
  · refine NoticesKept.congr frames ?_
    cases p with
    | traffic => exact notices.resolve_right fun h => h rfl
    | key => exact Nat.le_refl _
    | operations => exact Nat.le_refl _
  · refine (law.congr ⟨by simp, by simp, fun t => ?_⟩).ghost
    rw [tunnel]
    exact {}

/-- A change of a port: the places reserved for no response owed, and the room of its response queue. -/
theorem Keeps.modPlaces {g : Ghost} (d : Device) (p : Port) (f : PortState → PortState) {s : Port → Nat}
    (others : ∀ q, q ≠ p → s q = g.spare q)
    (kept : PlacesLaw g d → s p + (d.port p).reserved ≤ g.spare p + (f (d.port p)).reserved
      ∧ (f (d.port p)).responses.length + (f (d.port p)).reserved ≤ 32)
    (notices : (f (d.port p)).notices.length ≤ (d.port p).notices.length ∨ p ≠ .traffic) :
    Keeps g d { g with spare := s } (d.modPort p f) := by
  refine .changePort d p f others (fun law => ?_) notices
  obtain ⟨slack, room⟩ := kept law
  have places := law.reserved p
  exact ⟨by omega, room⟩

theorem Keeps.modPort {g : Ghost} (d : Device) (p : Port) (f : PortState → PortState)
    (reserved : (f (d.port p)).reserved = (d.port p).reserved)
    (responses : (f (d.port p)).responses.length ≤ (d.port p).responses.length)
    (notices : (f (d.port p)).notices.length ≤ (d.port p).notices.length ∨ p ≠ .traffic) :
    Keeps g d g (d.modPort p f) := by
  refine Keeps.modPlaces (s := g.spare) d p f (fun _ _ => rfl) (fun law => ?_) notices
  have room := law.room p
  rw [reserved]
  exact ⟨Nat.le_refl _, Nat.le_trans (Nat.add_le_add_right responses _) room⟩

/-- The ghost with more places on a port that no response is owed for. -/
def Ghost.plus (g : Ghost) (p : Port) (n : Nat) : Ghost :=
  { g with spare := fun q => if q = p then g.spare q + n else g.spare q }

/-- The ghost with the place of a frame's response, that is owed no longer. -/
def Ghost.gains (g : Ghost) (f : Frame) : Ghost := { g with spare := fun p => g.spare p + bit (f.owes p) }

theorem Frame.owes_other {f : Frame} {p q : Port} (h : f.owes p = true) (other : q ≠ p) : f.owes q = false := by
  unfold Frame.owes Frame.submittedBy at *
  cases p <;> cases q <;> cases of : f.party <;> simp_all

theorem Ghost.gains_of_owes {g : Ghost} {f : Frame} {p : Port} (h : f.owes p = true) : g.gains f = g.plus p 1 := by
  unfold Ghost.gains Ghost.plus
  congr 1
  funext q
  by_cases is : q = p
  · subst is
    rw [h, if_pos rfl]
    rfl
  · rw [Frame.owes_other h is, if_neg is]
    rfl

/-- Places for which no response is owed are released. -/
theorem Keeps.waivePlus {g : Ghost} (d : Device) (p : Port) (n : Nat) : Keeps (g.plus p n) d g d := by
  refine .waive (g := g.plus p n) d fun q => ?_
  show g.spare q ≤ if q = p then g.spare q + n else g.spare q
  split
  · exact Nat.le_add_right ..
  · exact Nat.le_refl _

theorem Keeps.waiveGain {g : Ghost} (d : Device) (f : Frame) : Keeps (g.gains f) d g d :=
  .waive (g := g.gains f) d fun _ => Nat.le_add_right ..

/-- A response queued in places that are not those of a response owed. -/
theorem Keeps.queueResponse {g : Ghost} (d : Device) (p : Port) {n k : Nat} (r : Response) (records : k ≤ n) :
    Keeps (g.plus p n) d g (d.queueResponse p n r k) := by
  have count : (responseRecords r k).length = k := by simp [responseRecords]
  refine Keeps.modPlaces (g := g.plus p n) (s := g.spare) d p _ (fun q other => (if_neg other).symm) (fun law => ?_)
    (.inl (Nat.le_refl _))
  have room := law.room p
  have places := law.reserved p
  simp only [Ghost.plus, if_true, List.length_append, count] at places ⊢
  omega

/-- A response queued in no place, on a port that has just been emptied (R178). -/
theorem Keeps.queueUnreserved {g : Ghost} (d : Device) (p : Port) (r : Response)
    (empty : (d.port p).responses = []) (none_ : (d.port p).reserved = 0) : Keeps g d g (d.queueResponse p 0 r 1) := by
  refine Keeps.modPlaces (s := g.spare) d p _ (fun _ _ => rfl) (fun law => ?_) (.inl (Nat.le_refl _))
  simp [empty, none_, responseRecords]

/-- A request taken from its queue: its places are reserved. -/
theorem Keeps.popRequest {g : Ghost} (d : Device) (p : Port) {n : Nat} (room : (d.port p).canReserve n = true) :
    Keeps g d (g.plus p n) (d.popRequest p n) := by
  have free : (d.port p).responses.length + (d.port p).reserved + n ≤ 32 := of_decide_eq_true room
  refine .modPlaces d p _ (fun q other => if_neg other) (fun law => ?_) (.inl (Nat.le_refl _))
  simp only [if_true]
  omega

/-- A deferred response queued in its one place (R174). -/
theorem Keeps.answerDeferred {g : Ghost} (d : Device) (p : Port) (tag : BitVec 16) (code : Nat) (st : Status) (o : Result)
    (body : Body) : Keeps (g.plus p 1) d g (d.answerDeferred p tag code st o body) :=
  .queueResponse d p _ (Nat.le_refl _)

/-! ### The cell store -/

theorem CellStore.FreeZero.of_same {a b : CellStore} (zero : a.FreeZero) (bytes : b.bytes = a.bytes)
    (free : ∀ n, (b.cell n).state = .free → (a.cell n).state = .free) : b.FreeZero := by
  intro n k is small
  rw [bytes]
  exact zero n k (free n is) small

theorem CellStore.FreeZero.pass {c : CellStore} (zero : c.FreeZero) {st : CellState} (other : st ≠ .free)
    (cells : List Nat) : (c.pass st cells).FreeZero := by
  refine zero.of_same (c.bytes_pass ..) fun n free => ?_
  rw [c.cell_pass st other] at free
  split at free
  · exact absurd free other
  · exact free

theorem CellStore.FreeZero.release {c : CellStore} (zero : c.FreeZero) (cells : List Nat) : (c.release cells).FreeZero := by
  intro n k free small
  rw [c.read_release]
  split
  · rfl
  next away =>
    refine zero n k ?_ small
    have : (n * 256 + k) / 256 = n := by omega
    rw [this] at away
    rw [c.cell_release, if_neg away] at free
    exact free

theorem CellStore.FreeZero.lay {c : CellStore} (zero : c.FreeZero) {cells : List Nat} {bs : List Byte}
    (distinct : cells.Nodup) (fits : bs.length ≤ cells.length * 256)
    (used : ∀ n ∈ cells, (c.cell n).state ≠ .free) : (c.lay cells bs).FreeZero := by
  intro n k free small
  have same : (c.lay cells bs).cell n = c.cell n := congrArg (SMap.get Cell.free · n) (c.cells_lay ..)
  rw [same] at free
  have at_ : (n * 256 + k) / 256 = n := by omega
  rw [c.read_lay_outside cells bs distinct fits _ (by rw [at_]; exact fun mem => used n mem free)]
  exact zero n k free small

theorem CellStore.FreeZero.take {c : CellStore} (zero : c.FreeZero) (pool : Pool) {st : CellState} (other : st ≠ .free)
    (cells : List Nat) : (c.take pool st cells).FreeZero := by
  refine zero.of_same (c.bytes_take ..) fun n free => ?_
  rw [c.cell_take] at free
  split at free
  · exact absurd free other
  · exact free

/-! ### The ends of frames -/

/-- The GENERATED places of an engine that holds no frame it did not hold before. -/
theorem NoticesKept.fewer {a b : Device} (law : a.NoticesKept) (control : b.engine.control.Sublist a.engine.control)
    (settle : ∀ f ∈ b.engine.settle ++ b.engine.bulk, f ∈ a.engine.settle ++ a.engine.bulk)
    (inWork : b.engine.inWork = a.engine.inWork ∨ b.engine.inWork = none)
    (notices : b.traffic.notices.length ≤ a.traffic.notices.length) : b.NoticesKept := by
  obtain ⟨places, bulk, held⟩ := law
  have count := control.countP_le (p := (·.reserved))
  refine ⟨?_, fun f is => bulk f (settle f is), fun f is => held f ?_⟩
  · unfold Device.generatedReserved at places ⊢
    obtain same | none_ := inWork
    · rw [same]
      omega
    · rw [none_]
      simp only
      omega
  · unfold Engine.held Engine.waiting at is ⊢
    simp only [List.append_assoc, List.mem_append] at is settle ⊢
    obtain is | is | is | is := is
    · exact .inl (control.mem is)
    · obtain old | old := settle f (.inl is)
      · exact .inr (.inl old)
      · exact .inr (.inr (.inl old))
    · obtain old | old := settle f (.inr is)
      · exact .inr (.inl old)
      · exact .inr (.inr (.inl old))
    · obtain same | none_ := inWork
      · exact .inr (.inr (.inr (same ▸ is)))
      · rw [none_] at is
        exact absurd is List.not_mem_nil

/-- Frames leave their queues, and have not ended. -/
theorem Keeps.pick {g : Ghost} (d : Device) (e : Engine) (due : Bool) {gone : List Frame}
    (waiting : d.engine.waiting.Perm (gone ++ e.waiting)) (control : e.control.Sublist d.engine.control)
    (settle : e.settle.Sublist d.engine.settle) (bulk : e.bulk.Sublist d.engine.bulk)
    (inWork : e.inWork = d.engine.inWork) :
    Keeps g d { g with hand := gone ++ g.hand } { d with engine := e, buildDue := due } := by
  have held : (({ g with hand := gone ++ g.hand } : Ghost).held { d with engine := e, buildDue := due }).Perm
      (g.held d) := by
    unfold Ghost.held Ghost.inWork
    simp only [inWork]
    refine ((List.perm_append_comm (l₁ := gone) (l₂ := g.hand)).append_right _).trans ?_
    rw [List.append_assoc, ← List.append_assoc gone]
    exact (waiting.symm.append_right _).append_left _
  refine ⟨fun law => law.pick rfl waiting inWork, fun law => law.change (fun p => ?_) (fun _ => Nat.le_refl _)
    (fun _ _ h => h) fun f is => .inl (held.mem_iff.mp is), fun law => NoticesKept.fewer law control ?_ (.inl inWork)
    (Nat.le_refl _), fun law => (law.congr {}).ghost,
    fun law => (law.congr (b := { d with engine := e, buildDue := due }) inWork
      ⟨fun _ => rfl, rfl, by rw [inWork], fun _ => {}⟩).ghost⟩
  · refine Nat.le_of_eq ?_
    unfold Ghost.owed
    rw [held.countP_eq]
    rfl
  · exact fun f is => (settle.append bulk).mem is

/-- A frame ends, and its cells pass on; the place of its response is owed no longer. -/
theorem Keeps.ended {g : Ghost} {f : Frame} {rest : List Frame} (a b : Device)
    (store : FramesLaw { g with hand := f :: rest } a →
      b.store.Ok ∧ b.store.FreeZero ∧ ∀ n, n ∉ f.cells → (b.store.cell n).state = (a.store.cell n).state)
    (engine : b.engine = a.engine := by rfl) (places : SamePlaces a b := by exact {})
    (notices : b.traffic.notices.length ≤ a.traffic.notices.length := by exact Nat.le_refl _)
    (life : SameLife a b := by exact {})
    (keys : SameKeys a b := by exact {}) :
    Keeps { g with hand := f :: rest } a ({ g with hand := rest }.gains f) b := by
  have held : ({ g with hand := f :: rest } : Ghost).held a = f :: (({ g with hand := rest } : Ghost).gains f).held b := by
    unfold Ghost.held Ghost.inWork Ghost.gains
    rw [engine]
    rfl
  refine ⟨fun law => ?_, fun law => law.change (fun p => ?_) (fun p => ?_) (fun t _ none_ => (places.tags t).trans none_)
    fun f' is => .inl (held ▸ List.mem_cons_of_mem _ is), fun law => NoticesKept.fewer law (engine ▸ List.Sublist.refl _)
      (by rw [engine]; exact fun _ h => h) (.inl (by rw [engine])) notices, fun law => (law.congr life).ghost,
      fun law => (law.congr (by rw [engine]) keys).ghost⟩
  · obtain ⟨ok, zero, others⟩ := store law
    exact (law.ended ok zero (by rw [engine]) (by rw [engine]) others).ghost
  · unfold Ghost.owed
    rw [held, List.countP_cons, places.owedElse, places.reserved]
    show _ + _ + (g.spare p + bit (f.owes p)) + _ ≤ _ + _ + g.spare p + _
    have : bit (f.owes p) = if f.owes p = true then 1 else 0 := rfl
    omega
  · rw [places.reserved]
    exact Nat.add_le_add_right (places.responses p) _

theorem Keeps.endedFree {g : Ghost} {f : Frame} {rest : List Frame} (d : Device) :
    Keeps { g with hand := f :: rest } d ({ g with hand := rest }.gains f) (d.freeCells f.cells) :=
  .ended d _ fun law => ⟨law.ok.release _, law.zero.release _, fun n away => by
    show ((d.store.release f.cells).cell n).state = _
    rw [CellStore.cell_release, if_neg away]⟩

theorem Keeps.endedPass {g : Ghost} {f : Frame} {rest : List Frame} (d : Device) (o : Owner) :
    Keeps { g with hand := f :: rest } d ({ g with hand := rest }.gains f) (d.passCells f.cells (.done o)) :=
  .ended d _ fun law => ⟨law.ok.pass _ _ (by exact fun h => (nomatch h)), law.zero.pass (by exact fun h => (nomatch h)) _,
    fun n away => by
      show ((d.store.pass (.done o) f.cells).cell n).state = _
      rw [CellStore.cell_pass _ _ (by exact fun h => (nomatch h)), if_neg fun h => away h.1]⟩

end Sys2Proof.Machine
end

/-! PROOF. The key store's invariant: what a change of one tunnel's slots must give for it to be kept, and retirements,
promotions, bindings, releases and derivations (R51, R54, R56, R61, R68, R69, R73, R80). -/
section

namespace Sys2Proof.Machine

-- One theorem at a time, so that the threads of the whole text stay within its memory.
set_option Elab.async false

/-- The frame in work is bound to an entry of a tunnel. -/
def Device.Binds (d : Device) (t e : Nat) : Prop := ∃ w, d.engine.inWork = some w ∧ w.frame.tunnel = t ∧ w.entry = e

theorem Tunnel.key?_dropKey (x : Tunnel) (s r : Slot) : (x.dropKey s).key? r = if r = s then none else x.key? r := by
  cases s <;> cases r <;> rfl

/-- A change of the slots of one tunnel: its keys come from its keys, those that leave free their entries, and the
frame in work is bound to a key that is marked so. -/
theorem KeysLaw.change {a b : Device} {t : Nat} {freed : List Nat} (law : KeysLaw a)
    (others : ∀ u, u ≠ t → b.tunnel u = a.tunnel u) (jobs : b.keys.jobs = a.keys.jobs)
    (entries : ∀ e, b.keys.entry e = if e ∈ freed then .free else a.keys.entry e)
    (from_ : ∀ s k, b.Holds t s k → ∃ s' k', a.Holds t s' k' ∧ k'.entry = k.entry)
    (apart : ∀ s r k m, b.Holds t s k → b.Holds t r m → k.entry = m.entry → s = r)
    (stays : ∀ s k, a.Holds t s k → k.entry ∈ freed ∨ ∃ r m, b.Holds t r m ∧ m.entry = k.entry)
    (gone : ∀ e ∈ freed, (∃ s k, a.Holds t s k ∧ k.entry = e) ∧ ∀ s k, b.Holds t s k → k.entry ≠ e)
    (next : ∀ n, n.ready = false → ((b.tunnel t).next = some n ↔ (a.tunnel t).next = some n))
    (flight : (b.tunnel t).inDerivation = (a.tunnel t).inDerivation)
    (bound : ∀ s k, b.Holds t s k → (k.bound = true ↔ b.Binds t k.entry))
    (elsewhere : ∀ u, u ≠ t → ∀ e, b.Binds u e ↔ a.Binds u e)
    (work : ∀ w, b.engine.inWork = some w → w.frame.tunnel = t → ∃ s k, b.Holds t s k ∧ k.entry = w.entry)
    (pending : ∀ s k, b.Holds t s k → k.retirePending = true → k.bound = true) : KeysLaw b := by
  have holds : ∀ u, u ≠ t → ∀ s k, b.Holds u s k ↔ a.Holds u s k := by
    intro u other s k
    unfold Device.Holds
    rw [others u other]
  have deriving_ : ∀ u n, n.ready = false → ((b.tunnel u).next = some n ↔ (a.tunnel u).next = some n) := by
    intro u n ready
    by_cases is : u = t
    · exact is ▸ next n ready
    · rw [others u is]
  have old : ∀ u s k, b.Holds u s k → ∃ s' k', a.Holds u s' k' ∧ k'.entry = k.entry := by
    intro u s k is
    by_cases same : u = t
    · subst same
      exact from_ s k is
    · exact ⟨s, k, (holds u same s k).mp is, rfl⟩
  refine ⟨fun e => ⟨fun used => ?_, fun ⟨u, s, k, is, entry⟩ => ?_⟩, fun u s k v r m is is' same => ?_,
    fun u s k is => ?_, fun j is => ?_, jobs ▸ law.jobs, fun u n is ready => ?_, fun u => ?_, fun u s k is => ?_,
    fun w is => ?_, fun u s k is retire => ?_⟩
  · rw [entries] at used
    split at used
    · exact absurd rfl used
    next kept =>
      obtain ⟨u, s, k, is, entry⟩ := (law.used e).mp used
      by_cases same : u = t
      · subst same
        obtain free | ⟨r, m, is', entry'⟩ := stays s k is
        · exact absurd (entry ▸ free) kept
        · exact ⟨u, r, m, is', entry'.trans entry⟩
      · exact ⟨u, s, k, (holds u same s k).mpr is, entry⟩
  · rw [entries, if_neg]
    · obtain ⟨s', k', is', entry'⟩ := old u s k is
      exact (law.used e).mpr ⟨u, s', k', is', entry'.trans entry⟩
    · intro free
      obtain ⟨⟨r, m, ism, entrym⟩, away⟩ := gone e free
      by_cases same : u = t
      · subst same
        exact away s k is entry
      · exact same (law.apart u s k t r m ((holds u same s k).mp is) ism (entry.trans entrym.symm)).1
  · by_cases ut : u = t
    · by_cases vt : v = t
      · subst ut
        subst vt
        exact ⟨rfl, apart s r k m is is' same⟩
      · obtain ⟨s', k', isk, entry⟩ := old u s k is
        exact absurd ((law.apart u s' k' v r m isk ((holds v vt r m).mp is') (entry.trans same)).1.symm.trans ut) vt
    · obtain ⟨r', m', ism, entry⟩ := old v r m is'
      have at_u := (holds u ut s k).mp is
      obtain ⟨uv, slot⟩ := law.apart u s k v r' m' at_u ism (same.trans entry.symm)
      by_cases vt : v = t
      · exact absurd (uv.trans vt) ut
      · exact law.apart u s k v r m at_u ((holds v vt r m).mp is') same
  · obtain ⟨s', k', is', entry⟩ := old u s k is
    exact entry ▸ law.below u s' k' is'
  · obtain ⟨n, is', ready, epoch, entry⟩ := law.job j (jobs ▸ is)
    exact ⟨n, (deriving_ j.tunnel n ready).mpr is', ready, epoch, entry⟩
  · rw [jobs]
    exact law.deriving_ u n ((deriving_ u n ready).mp is) ready
  · have same : (b.tunnel u).inDerivation = (a.tunnel u).inDerivation := by
      by_cases is : u = t
      · exact is ▸ flight
      · rw [others u is]
    rw [same, law.flight]
    exact ⟨fun ⟨n, is, ready⟩ => ⟨n, (deriving_ u n ready).mpr is, ready⟩,
      fun ⟨n, is, ready⟩ => ⟨n, (deriving_ u n ready).mp is, ready⟩⟩
  · by_cases same : u = t
    · subst same
      exact bound s k is
    · exact (law.bound u s k ((holds u same s k).mp is)).trans (elsewhere u same k.entry).symm
  · by_cases same : w.frame.tunnel = t
    · rw [same]
      exact work w is same
    · obtain ⟨w', is', tunnel, entry⟩ := (elsewhere _ same w.entry).mp ⟨w, is, rfl, rfl⟩
      obtain ⟨s, k, holds', entry'⟩ := law.work w' is'
      rw [tunnel] at holds'
      exact ⟨s, k, (holds _ same s k).mpr holds', entry'.trans entry⟩
  · by_cases same : u = t
    · subst same
      exact pending s k is retire
    · exact law.pending u s k ((holds u same s k).mp is) retire

/-- A change of the slots of one tunnel that binds and releases nothing: only keys that are not bound free their
entries. -/
theorem KeysLaw.rearrange {a b : Device} {t : Nat} {freed : List Nat} (law : KeysLaw a)
    (others : ∀ u, u ≠ t → b.tunnel u = a.tunnel u) (jobs : b.keys.jobs = a.keys.jobs)
    (entries : ∀ e, b.keys.entry e = if e ∈ freed then .free else a.keys.entry e)
    (inWork : b.engine.inWork = a.engine.inWork)
    (from_ : ∀ s k, b.Holds t s k → ∃ s' k', a.Holds t s' k' ∧ k'.entry = k.entry ∧ k'.bound = k.bound)
    (apart : ∀ s r k m, b.Holds t s k → b.Holds t r m → k.entry = m.entry → s = r)
    (stays : ∀ s k, a.Holds t s k → (k.entry ∈ freed ∧ k.bound = false) ∨ ∃ r m, b.Holds t r m ∧ m.entry = k.entry)
    (gone : ∀ e ∈ freed, (∃ s k, a.Holds t s k ∧ k.entry = e) ∧ ∀ s k, b.Holds t s k → k.entry ≠ e)
    (next : ∀ n, n.ready = false → ((b.tunnel t).next = some n ↔ (a.tunnel t).next = some n))
    (flight : (b.tunnel t).inDerivation = (a.tunnel t).inDerivation)
    (pending : ∀ s k, b.Holds t s k → k.retirePending = true → k.bound = true) : KeysLaw b := by
  have binds : ∀ u e, b.Binds u e ↔ a.Binds u e := by
    intro u e
    unfold Device.Binds
    rw [inWork]
  refine law.change others jobs entries (fun s k is => ?_) apart (fun s k is => (stays s k is).imp_left And.left) gone
    next flight (fun s k is => ?_) (fun u _ e => binds u e) (fun w is tunnel => ?_) pending
  · obtain ⟨s', k', is', entry, -⟩ := from_ s k is
    exact ⟨s', k', is', entry⟩
  · obtain ⟨s', k', is', entry, bound⟩ := from_ s k is
    rw [binds, ← bound, law.bound t s' k' is', entry]
    rfl
  · obtain ⟨s, k, is', entry⟩ := law.work w (inWork ▸ is)
    rw [tunnel] at is'
    obtain ⟨-, unbound⟩ | ⟨r, m, holds, same⟩ := stays s k is'
    · have bound := (law.bound t s k is').mpr ⟨w, inWork ▸ is, tunnel, entry.symm⟩
      exact absurd (bound.symm.trans unbound) Bool.noConfusion
    · exact ⟨r, m, holds, same.trans entry⟩

/-! ### Retirement -/

/-- A key that is not bound, in a slot that no job fills, leaves. -/
theorem KeysLaw.dropKey {d : Device} (law : KeysLaw d) {t : Nat} {s : Slot} {k : KeyRecord}
    (is : (d.tunnel t).key? s = some k) (unbound : k.bound = false)
    (still : s = .next → ∀ n, (d.tunnel t).next = some n → n.ready = true) :
    KeysLaw ((d.setEntry k.entry .free).modTunnel t (·.dropKey s)) := by
  have holds : ∀ r m, ((d.setEntry k.entry .free).modTunnel t (·.dropKey s)).Holds t r m ↔ r ≠ s ∧ d.Holds t r m := by
    intro r m
    unfold Device.Holds
    rw [Device.tunnel_modTunnel, if_pos rfl, Tunnel.key?_dropKey]
    by_cases same : r = s <;> simp [same]
  refine law.rearrange (t := t) (freed := [k.entry]) (fun u other => ?_) rfl (fun e => ?_) rfl (fun r m is' => ?_)
    (fun r q m l is' isl same => ?_) (fun r m is' => ?_) (fun e mem => ?_) (fun n ready => ?_) ?_ fun r m is' => ?_
  · rw [Device.tunnel_modTunnel, if_neg other]
    rfl
  · refine (d.entry_setEntry k.entry e .free).trans ?_
    simp
  · exact ⟨r, m, ((holds r m).mp is').2, rfl, rfl⟩
  · exact (law.apart t r m t q l ((holds r m).mp is').2 ((holds q l).mp isl).2 same).2
  · by_cases same : r = s
    · subst same
      have : m = k := Option.some.inj (is'.symm.trans is)
      subst this
      exact .inl ⟨List.mem_singleton_self _, unbound⟩
    · exact .inr ⟨r, m, (holds r m).mpr ⟨same, is'⟩, rfl⟩
  · obtain rfl := List.mem_singleton.mp mem
    refine ⟨⟨s, k, is, rfl⟩, fun r m is' same => ?_⟩
    obtain ⟨other, is''⟩ := (holds r m).mp is'
    exact other (law.apart t r m t s k is'' is same).2
  · rw [Device.tunnel_modTunnel, if_pos rfl]
    cases s with
    | next =>
      refine ⟨fun h => (nomatch h), fun h => ?_⟩
      exact absurd ((still rfl n h).symm.trans ready) Bool.noConfusion
    | current => exact Iff.rfl
    | previous => exact Iff.rfl
  · rw [Device.tunnel_modTunnel, if_pos rfl]
    cases s <;> rfl
  · exact law.pending t r m ((holds r m).mp is').2

/-- A change of the key in a slot that keeps its entry, its epoch and its mark. -/
theorem KeysLaw.modKey {d : Device} (law : KeysLaw d) {t : Nat} {s : Slot} {k : KeyRecord}
    (is : (d.tunnel t).key? s = some k) (f : KeyRecord → KeyRecord) (entry : (f k).entry = k.entry)
    (bound : (f k).bound = k.bound) (pending : (f k).retirePending = true → k.bound = true)
    (still : s = .next → ∀ n, (d.tunnel t).next = some n → n.ready = true) :
    KeysLaw (d.modTunnel t (·.modKey s f)) := by
  have holds : ∀ r m, (d.modTunnel t (·.modKey s f)).Holds t r m ↔
      (r ≠ s ∧ d.Holds t r m) ∨ (r = s ∧ m = f k) := by
    intro r m
    unfold Device.Holds
    rw [Device.tunnel_modTunnel, if_pos rfl, Tunnel.key?_modKey]
    by_cases same : r = s
    · subst same
      simp [is, eq_comm]
    · simp [same]
  have old : ∀ r m, (d.modTunnel t (·.modKey s f)).Holds t r m →
      ∃ m', d.Holds t r m' ∧ m'.entry = m.entry ∧ m'.bound = m.bound := by
    intro r m is'
    obtain ⟨-, is'⟩ | ⟨rfl, rfl⟩ := (holds r m).mp is'
    · exact ⟨m, is', rfl, rfl⟩
    · exact ⟨k, is, entry.symm, bound.symm⟩
  refine law.rearrange (t := t) (freed := []) (fun u other => ?_) rfl (fun e => ?_) rfl (fun r m is' => ?_)
    (fun r q m l is' isl same => ?_) (fun r m is' => ?_) (fun e mem => absurd mem List.not_mem_nil) (fun n ready => ?_)
    ?_ fun r m is' retire => ?_
  · rw [Device.tunnel_modTunnel, if_neg other]
  · rw [if_neg List.not_mem_nil]
    rfl
  · obtain ⟨m', is', entry', bound'⟩ := old r m is'
    exact ⟨r, m', is', entry', bound'⟩
  · obtain ⟨m', ism, entrym, -⟩ := old r m is'
    obtain ⟨l', isl, entryl, -⟩ := old q l isl
    exact (law.apart t r m' t q l' ism isl (entrym.trans (same.trans entryl.symm))).2
  · by_cases same : r = s
    · subst same
      have : m = k := Option.some.inj (is'.symm.trans is)
      subst this
      exact .inr ⟨r, f m, (holds r _).mpr (.inr ⟨rfl, rfl⟩), entry⟩
    · exact .inr ⟨r, m, (holds r m).mpr (.inl ⟨same, is'⟩), rfl⟩
  · rw [Device.tunnel_modTunnel, if_pos rfl]
    cases s with
    | next =>
      refine ⟨fun h => ?_, fun h => absurd ((still rfl n h).symm.trans ready) Bool.noConfusion⟩
      obtain ⟨n', next, rfl⟩ := Option.map_eq_some_iff.mp h
      exact absurd ((still rfl n' next).symm.trans ready) Bool.noConfusion
    | current => exact Iff.rfl
    | previous => exact Iff.rfl
  · rw [Device.tunnel_modTunnel, if_pos rfl]
    cases s <;> rfl
  · obtain ⟨-, is'⟩ | ⟨rfl, rfl⟩ := (holds r m).mp is'
    · exact law.pending t r m is' retire
    · exact bound.trans (pending retire)

/-- A cause of retirement reaches a key whose slot no job fills (R69). -/
theorem KeysLaw.retireKey {d : Device} (law : KeysLaw d) {t : Nat} {s : Slot}
    (still : s = .next → ∀ n, (d.tunnel t).next = some n → n.ready = true) : KeysLaw (d.retireKey t s) := by
  cases is : (d.tunnel t).key? s with
  | none =>
    have same : d.retireKey t s = d := by
      unfold Device.retireKey
      rw [is]
    rw [same]
    exact law
  | some k =>
    rw [Device.retireKey_eq is]
    cases bound : k.bound with
    | true => exact law.modKey is _ rfl rfl (fun _ => bound) still
    | false => exact law.dropKey is bound still

end Sys2Proof.Machine
end

/-! PROOF. The key store's invariant over promotions, bindings and releases, and over the life of a derivation (R51, R54,
R56, R59, R61, R62, R63, R69, R73, R74, R82). -/
section

namespace Sys2Proof.Machine

-- One theorem at a time, so that the threads of the whole text stay within its memory.
set_option Elab.async false

/-! ### Promotion -/

theorem Device.holds_next {d : Device} {t : Nat} {n : NextKey} (is : (d.tunnel t).next = some n) :
    d.Holds t .next n.key := by
  unfold Device.Holds Tunnel.key?
  rw [is]
  rfl

theorem Device.holds_current {d : Device} {t : Nat} {c : CurrentKey} (is : (d.tunnel t).current = some c) :
    d.Holds t .current c.key := by
  unfold Device.Holds Tunnel.key?
  rw [is]
  rfl

/-- Two keys of a tunnel are not bound at once (R56). -/
theorem KeysLaw.bound_one {d : Device} (law : KeysLaw d) {t : Nat} {s r : Slot} {k m : KeyRecord} (is : d.Holds t s k)
    (is' : d.Holds t r m) (bound : k.bound = true) (bound' : m.bound = true) : s = r := by
  obtain ⟨w, work, -, entry⟩ := (law.bound t s k is).mp bound
  obtain ⟨w', work', -, entry'⟩ := (law.bound t r m is').mp bound'
  have same : w = w' := Option.some.inj (work.symm.trans work')
  exact (law.apart t s k t r m is is' (entry.symm.trans (same ▸ entry'))).2

/-- A key moves to a slot that is ABSENT. -/
theorem KeysLaw.moveKey {d : Device} (law : KeysLaw d) {t : Nat} {s r : Slot} {k m : KeyRecord} {f : Tunnel → Tunnel}
    (is : d.Holds t s k) (absent : (d.tunnel t).key? r = none)
    (slots : ∀ q, (f (d.tunnel t)).key? q = if q = r then some m else if q = s then none else (d.tunnel t).key? q)
    (entry : m.entry = k.entry) (bound : m.bound = k.bound) (pending : m.retirePending = true → k.bound = true)
    (next : ∀ n, n.ready = false → ((f (d.tunnel t)).next = some n ↔ (d.tunnel t).next = some n))
    (flight : (f (d.tunnel t)).inDerivation = (d.tunnel t).inDerivation) : KeysLaw (d.modTunnel t f) := by
  have record : (d.modTunnel t f).tunnel t = f (d.tunnel t) := by rw [Device.tunnel_modTunnel, if_pos rfl]
  have holds : ∀ q l, (d.modTunnel t f).Holds t q l →
      (q = r ∧ l = m) ∨ (q ≠ r ∧ q ≠ s ∧ d.Holds t q l) := by
    intro q l h
    unfold Device.Holds at h
    rw [record, slots] at h
    split at h
    · exact .inl ⟨‹_›, (Option.some.inj h).symm⟩
    · split at h
      · exact nomatch h
      · exact .inr ⟨‹_›, ‹_›, h⟩
  have other : ∀ q l, q ≠ s → d.Holds t q l → (d.modTunnel t f).Holds t q l := by
    intro q l away h
    have notr : q ≠ r := fun e => by
      subst e
      exact nomatch absent.symm.trans h
    unfold Device.Holds
    rw [record, slots, if_neg notr, if_neg away]
    exact h
  have moved : (d.modTunnel t f).Holds t r m := by
    unfold Device.Holds
    rw [record, slots, if_pos rfl]
  refine law.rearrange (t := t) (freed := []) (fun u away => ?_) rfl (fun e => (if_neg List.not_mem_nil).symm ▸ rfl) rfl
    (fun q l h => ?_) (fun q p l j h h' same => ?_) (fun q l h => ?_) (fun e mem => absurd mem List.not_mem_nil)
    (fun n ready => ?_) ?_ fun q l h retire => ?_
  · rw [Device.tunnel_modTunnel, if_neg away]
  · obtain ⟨rfl, rfl⟩ | ⟨-, -, h⟩ := holds q l h
    · exact ⟨s, k, is, entry.symm, bound.symm⟩
    · exact ⟨q, l, h, rfl, rfl⟩
  · obtain ⟨rfl, rfl⟩ | ⟨-, away, h⟩ := holds q l h <;> obtain ⟨rfl, rfl⟩ | ⟨-, away', h'⟩ := holds p j h'
    · rfl
    · exact absurd (law.apart t p j t s k h' is (same.symm.trans entry)).2 away'
    · exact absurd (law.apart t q l t s k h is (same.trans entry)).2 away
    · exact (law.apart t q l t p j h h' same).2
  · by_cases here : q = s
    · subst here
      obtain rfl : l = k := Option.some.inj (h.symm.trans is)
      exact .inr ⟨r, m, moved, entry⟩
    · exact .inr ⟨q, l, other q l here h, rfl⟩
  · rw [record]
    exact next n ready
  · rw [record]
    exact flight
  · obtain ⟨-, rfl⟩ | ⟨-, -, h⟩ := holds q l h
    · exact bound.trans (pending retire)
    · exact law.pending t q l h retire

theorem KeysLaw.give {d : Device} (law : KeysLaw d) (e : EventSource) (c : Option Nat) : KeysLaw (d.give e c) :=
  law.congr {}

theorem KeysLaw.demote {d : Device} (law : KeysLaw d) {t : Nat} {c : CurrentKey} (current : (d.tunnel t).current = some c)
    (previous : (d.tunnel t).previous = none) (grace : Option Clock) {pending : Bool}
    (bound : pending = true → c.key.bound = true) : KeysLaw (d.demote t c.key grace pending) := by
  refine law.moveKey (s := .current) (r := .previous) (m := { c.key with
    graceDeadline := grace, softDeadline := none, hardDeadline := none
    retirePending := c.key.retirePending || pending }) (Device.holds_current current) previous
    (fun q => by cases q <;> rfl) rfl rfl (fun retire => ?_)
    (fun _ _ => Iff.rfl) rfl
  obtain old | new := Bool.or_eq_true_iff.mp retire
  · exact law.pending t _ _ (Device.holds_current current) old
  · exact bound new

/-- Step 2 of a promotion (R73, R74). -/
theorem KeysLaw.demotion {d : Device} (law : KeysLaw d) {t : Nat}
    (stays : ∀ k, (d.tunnel t).previous = some k → k.bound = true) :
    KeysLaw (d.demotion t).1 ∧ ((d.demotion t).1.tunnel t).current = none
      ∧ ((d.demotion t).1.tunnel t).next = (d.tunnel t).next := by
  cases current : (d.tunnel t).current with
  | none =>
    rw [Device.demotion_absent current]
    exact ⟨law, current, rfl⟩
  | some c =>
    have is : d.Holds t .current c.key := Device.holds_current current
    have retired : KeysLaw (d.retireKey t .current) := law.retireKey fun h => (nomatch h)
    have record := (Device.KeyMove.retireCurrent current).record
    have demoted : ∀ grace pending, ((d.demote t c.key grace pending).tunnel t).current = none
        ∧ ((d.demote t c.key grace pending).tunnel t).next = (d.tunnel t).next := by
      intro grace pending
      rw [(Device.KeyMove.demote d t c.key grace pending).record]
      exact ⟨rfl, rfl⟩
    cases previous : (d.tunnel t).previous with
    | some k =>
      have unbound : ¬ c.key.bound = true := fun bound =>
        Slot.noConfusion (law.bound_one (r := .previous) is previous bound (stays k previous))
      rw [if_neg unbound] at record
      rw [Device.demotion_held previous current]
      split
      · rw [record]
        exact ⟨retired, rfl, rfl⟩
      · rw [Device.tunnel_give, record]
        exact ⟨retired.give _ _, rfl, rfl⟩
    | none =>
      by_cases expired : c.state = .expired
      · rw [Device.demotion_expired previous current expired]
        split
        next bound => exact ⟨law.demote current previous _ fun _ => bound, demoted _ _⟩
        next unbound =>
          rw [if_neg unbound] at record
          rw [record]
          exact ⟨retired, rfl, rfl⟩
      · rw [Device.demotion_grace previous current expired]
        exact ⟨law.demote current previous _ fun h => (nomatch h), demoted _ _⟩

/-- Step 1 of a promotion leaves a bound PREVIOUS key, if any (R73). -/
theorem KeysLaw.earlyRetire {d : Device} (law : KeysLaw d) (t : Nat) :
    KeysLaw (d.earlyRetire t).1 ∧ (∀ k, ((d.earlyRetire t).1.tunnel t).previous = some k → k.bound = true)
      ∧ ((d.earlyRetire t).1.tunnel t).next = (d.tunnel t).next := by
  cases previous : (d.tunnel t).previous with
  | none =>
    have same : d.earlyRetire t = (d, []) := by
      unfold Device.earlyRetire
      rw [previous]
    rw [same]
    refine ⟨law, fun k is => ?_, rfl⟩
    exact nomatch (previous.symm.trans is : none = some k)
  | some k =>
    have same : d.earlyRetire t = ((d.retireKey t .previous).give .earlyRetires (some t), [k.epoch]) := by
      unfold Device.earlyRetire
      rw [previous]
    refine ⟨?_, fun m is => ?_, ?_⟩
    · rw [same]
      exact KeysLaw.give (law.retireKey (s := .previous) fun h => (nomatch h)) _ _
    · rw [(Device.KeyMove.earlyRetire previous).record] at is
      cases bound : k.bound with
      | true =>
        simp only [bound, if_true, Option.some.injEq] at is
        exact is ▸ rfl
      | false => simp [bound] at is
    · rw [(Device.KeyMove.earlyRetire previous).record]

/-- A promotion of a key that is READY (R73, R74). -/
theorem KeysLaw.promote {d : Device} (law : KeysLaw d) {t : Nat} {n : NextKey} (next : (d.tunnel t).next = some n)
    (ready : n.ready = true) : KeysLaw (d.promote t).1 := by
  obtain ⟨early, stays, next₁⟩ := law.earlyRetire t
  obtain ⟨demoted, absent, next₂⟩ := early.demotion stays
  have same : (d.promote t).1 = (((d.earlyRetire t).1.demotion t).1.advanceKey t n.key).give .promotions (some t) := by
    unfold Device.promote
    rw [next]
  rw [same]
  generalize ((d.earlyRetire t).1.demotion t).1 = e at demoted absent next₂
  have is_next : (e.tunnel t).next = some n := next₂.trans (next₁.trans next)
  have is : e.Holds t .next n.key := Device.holds_next is_next
  have none_ : (e.tunnel t).key? .current = none := Option.map_eq_none_iff.mpr absent
  refine KeysLaw.give (demoted.moveKey (s := .next) (r := .current) (m := { n.key with
    outCount := 0, ageStart := some e.clock, softDeadline := some (e.after (seconds (e.profileOf t).softAge))
    hardDeadline := some (e.after (seconds (e.profileOf t).hardAge)) }) is none_
    (fun q => ?_) rfl rfl (demoted.pending t _ n.key is) (fun m deriving_ => ?_) ?_) _ _
  · dsimp only
    split <;> cases q <;> rfl
  · rw [is_next]
    dsimp only
    refine ⟨fun h => ?_, fun h => ?_⟩
    · split at h <;> exact nomatch h
    · cases h
      exact absurd (ready.symm.trans deriving_) Bool.noConfusion
  · dsimp only
    split <;> rfl

/-! ### Binding and release -/

/-- The frame that enters work binds a key of its tunnel that no job fills (R56, R82). -/
theorem KeysLaw.bind {a b : Device} (law : KeysLaw a) {w : InWork} {s : Slot} {k m : KeyRecord}
    (idle : a.engine.inWork = none) (busy : b.engine.inWork = some w) (is : a.Holds w.frame.tunnel s k)
    (named : w.entry = k.entry) (keys : b.keys = a.keys)
    (others : ∀ u, u ≠ w.frame.tunnel → b.tunnel u = a.tunnel u)
    (slots : ∀ r, (b.tunnel w.frame.tunnel).key? r = if r = s then some m else (a.tunnel w.frame.tunnel).key? r)
    (entry : m.entry = k.entry) (bound : m.bound = true)
    (next : ∀ n, n.ready = false →
      ((b.tunnel w.frame.tunnel).next = some n ↔ (a.tunnel w.frame.tunnel).next = some n))
    (flight : (b.tunnel w.frame.tunnel).inDerivation = (a.tunnel w.frame.tunnel).inDerivation) : KeysLaw b := by
  have holds : ∀ r l, b.Holds w.frame.tunnel r l → (r = s ∧ l = m) ∨ (r ≠ s ∧ a.Holds w.frame.tunnel r l) := by
    intro r l h
    unfold Device.Holds at h
    rw [slots] at h
    split at h
    · exact .inl ⟨‹_›, (Option.some.inj h).symm⟩
    · exact .inr ⟨‹_›, h⟩
  have stays : b.Holds w.frame.tunnel s m := (slots s).trans (if_pos rfl)
  have unbound : ∀ u r l, a.Holds u r l → ¬ l.bound = true := by
    intro u r l h marked
    obtain ⟨v, work, -⟩ := (law.bound u r l h).mp marked
    exact nomatch idle.symm.trans work
  have old : ∀ r l, b.Holds w.frame.tunnel r l → ∃ q j, a.Holds w.frame.tunnel q j ∧ j.entry = l.entry ∧ q = r := by
    intro r l h
    obtain ⟨rfl, rfl⟩ | ⟨-, h⟩ := holds r l h
    · exact ⟨_, k, is, entry.symm, rfl⟩
    · exact ⟨r, l, h, rfl, rfl⟩
  refine law.change (t := w.frame.tunnel) (freed := []) others (by rw [keys])
    (fun e => by rw [if_neg List.not_mem_nil, keys]) (fun r l h => ?_) (fun r q l j h h' same => ?_) (fun r l h => ?_)
    (fun e mem => absurd mem List.not_mem_nil) next flight (fun r l h => ?_) (fun u away e => ?_)
    (fun v work _ => ?_) fun r l h retire => ?_
  · obtain ⟨q, j, h', same, -⟩ := old r l h
    exact ⟨q, j, h', same⟩
  · obtain ⟨_, l', hl, samel, rfl⟩ := old r l h
    obtain ⟨_, j', hj, samej, rfl⟩ := old q j h'
    exact (law.apart _ _ l' _ _ j' hl hj (samel.trans (same.trans samej.symm))).2
  · by_cases here : r = s
    · subst here
      obtain rfl : l = k := Option.some.inj (h.symm.trans is)
      exact .inr ⟨r, m, stays, entry⟩
    · exact .inr ⟨r, l, ((slots r).trans (if_neg here)).trans h, rfl⟩
  · unfold Device.Binds
    obtain ⟨rfl, rfl⟩ | ⟨away, h⟩ := holds r l h
    · exact ⟨fun _ => ⟨w, busy, rfl, named.trans entry.symm⟩, fun _ => bound⟩
    · refine ⟨fun marked => absurd marked (unbound _ r l h), fun ⟨v, work, _, same⟩ => ?_⟩
      obtain rfl : w = v := Option.some.inj (busy.symm.trans work)
      exact absurd (law.apart _ r l _ s k h is (same.symm.trans named)).2 away
  · unfold Device.Binds
    rw [idle, busy]
    exact ⟨fun ⟨v, work, tunnel, _⟩ => absurd ((Option.some.inj work) ▸ tunnel).symm away, fun ⟨_, h, _⟩ => (nomatch h)⟩
  · obtain rfl : w = v := Option.some.inj (busy.symm.trans work)
    exact ⟨s, m, stays, entry.trans named.symm⟩
  · obtain ⟨rfl, rfl⟩ | ⟨-, h⟩ := holds r l h
    · exact bound
    · exact absurd (law.pending _ r l h retire) (unbound _ r l h)

/-- A tunnel's slot that holds an entry. -/
theorem Device.slotOf_of_holds {d : Device} (law : KeysLaw d) {t : Nat} {s : Slot} {k : KeyRecord} (is : d.Holds t s k) :
    (d.tunnel t).slotOf k.entry = some s := by
  have found : ((d.tunnel t).slotOf k.entry).isSome := by
    refine List.find?_isSome.mpr ⟨s, by cases s <;> simp, ?_⟩
    rw [show (d.tunnel t).key? s = some k from is]
    exact beq_self_eq_true _
  obtain ⟨r, at_⟩ := Option.isSome_iff_exists.mp found
  have holds := List.find?_some at_
  cases is' : (d.tunnel t).key? r with
  | none =>
    rw [is'] at holds
    exact nomatch holds
  | some m =>
    rw [is'] at holds
    rw [at_, (law.apart t s k t r m is is' (eq_of_beq holds).symm).2]

/-- The frame in work leaves the engine: the key that it bound is marked no longer, or leaves with its entry. -/
theorem KeysLaw.unbind {a b : Device} (law : KeysLaw a) {w : InWork} {s : Slot} {k : KeyRecord} {o : Option KeyRecord}
    (busy : a.engine.inWork = some w) (idle : b.engine.inWork = none) (is : a.Holds w.frame.tunnel s k)
    (named : k.entry = w.entry) (jobs : b.keys.jobs = a.keys.jobs)
    (entries : ∀ e, b.keys.entry e = if e ∈ (if o.isSome then [] else [k.entry]) then .free else a.keys.entry e)
    (others : ∀ u, u ≠ w.frame.tunnel → b.tunnel u = a.tunnel u)
    (slots : ∀ r, (b.tunnel w.frame.tunnel).key? r = if r = s then o else (a.tunnel w.frame.tunnel).key? r)
    (mark : ∀ m, o = some m → m.entry = k.entry ∧ m.bound = false ∧ m.retirePending = false)
    (next : ∀ n, n.ready = false →
      ((b.tunnel w.frame.tunnel).next = some n ↔ (a.tunnel w.frame.tunnel).next = some n))
    (flight : (b.tunnel w.frame.tunnel).inDerivation = (a.tunnel w.frame.tunnel).inDerivation) : KeysLaw b := by
  have bound : k.bound = true := (law.bound _ s k is).mpr ⟨w, busy, rfl, named.symm⟩
  have holds : ∀ r l, b.Holds w.frame.tunnel r l → (r = s ∧ o = some l) ∨ (r ≠ s ∧ a.Holds w.frame.tunnel r l) := by
    intro r l h
    unfold Device.Holds at h
    rw [slots] at h
    split at h
    · exact .inl ⟨‹_›, h⟩
    · exact .inr ⟨‹_›, h⟩
  have unbound : ∀ r l, r ≠ s → a.Holds w.frame.tunnel r l → l.bound = false := by
    intro r l away h
    exact Bool.eq_false_iff.mpr fun marked => away (law.bound_one h is marked bound)
  have old : ∀ r l, b.Holds w.frame.tunnel r l →
      ∃ q j, a.Holds w.frame.tunnel q j ∧ j.entry = l.entry ∧ q = r ∧ l.bound = false
        ∧ (l.retirePending = true → l.bound = true) := by
    intro r l h
    obtain ⟨rfl, here⟩ | ⟨away, h⟩ := holds r l h
    · obtain ⟨entry, free, stays⟩ := mark l here
      exact ⟨_, k, is, entry.symm, rfl, free, fun retire => absurd (retire.symm.trans stays) Bool.noConfusion⟩
    · exact ⟨r, l, h, rfl, rfl, unbound r l away h, law.pending _ r l h⟩
  have none_ : ∀ u e, ¬ b.Binds u e := by
    rintro u e ⟨v, work, -⟩
    exact nomatch idle.symm.trans work
  refine law.change (t := w.frame.tunnel) others jobs entries (fun r l h => ?_) (fun r q l j h h' same => ?_)
    (fun r l h => ?_) (fun e mem => ?_) next flight (fun r l h => ?_) (fun u away e => ?_)
    (fun v work _ => nomatch idle.symm.trans work) fun r l h => ?_
  · obtain ⟨q, j, h', same, -⟩ := old r l h
    exact ⟨q, j, h', same⟩
  · obtain ⟨_, l', hl, samel, rfl, -⟩ := old r l h
    obtain ⟨_, j', hj, samej, rfl, -⟩ := old q j h'
    exact (law.apart _ _ l' _ _ j' hl hj (samel.trans (same.trans samej.symm))).2
  · by_cases here : r = s
    · subst here
      obtain rfl : l = k := Option.some.inj (h.symm.trans is)
      cases of : o with
      | none => exact .inl (List.mem_singleton_self _)
      | some m => exact .inr ⟨r, m, (slots r).trans ((if_pos rfl).trans of), (mark m of).1⟩
    · exact .inr ⟨r, l, ((slots r).trans (if_neg here)).trans h, rfl⟩
  · cases of : o with
    | some m =>
      rw [of] at mem
      exact absurd mem List.not_mem_nil
    | none =>
      rw [of] at mem
      obtain rfl := List.mem_singleton.mp mem
      refine ⟨⟨s, k, is, rfl⟩, fun r l h same => ?_⟩
      obtain ⟨-, here⟩ | ⟨away, h⟩ := holds r l h
      · exact nomatch of.symm.trans here
      · exact away (law.apart _ r l _ s k h is same).2
  · obtain ⟨-, -, -, -, -, free, -⟩ := old r l h
    exact ⟨fun marked => absurd (marked.symm.trans free) Bool.noConfusion, fun h => absurd h (none_ _ _)⟩
  · refine ⟨fun h => absurd h (none_ _ _), fun ⟨v, work, tunnel, _⟩ => ?_⟩
    obtain rfl : w = v := Option.some.inj (busy.symm.trans work)
    exact absurd tunnel.symm away
  · obtain ⟨-, -, -, -, -, -, pending⟩ := old r l h
    exact pending

/-- A change of the key in a slot that no job fills leaves a DERIVING NEXT. -/
theorem Tunnel.next_modKey {x : Tunnel} {s : Slot} (still : s = .next → ∀ n, x.next = some n → n.ready = true)
    (f : KeyRecord → KeyRecord) (n : NextKey) (deriving_ : n.ready = false) :
    (x.modKey s f).next = some n ↔ x.next = some n := by
  cases s with
  | next =>
    refine ⟨fun h => ?_, fun h => absurd ((still rfl n h).symm.trans deriving_) Bool.noConfusion⟩
    obtain ⟨n', next, rfl⟩ := Option.map_eq_some_iff.mp h
    exact absurd ((still rfl n' next).symm.trans deriving_) Bool.noConfusion
  | current => exact Iff.rfl
  | previous => exact Iff.rfl

theorem Tunnel.next_dropKey {x : Tunnel} {s : Slot} (still : s = .next → ∀ n, x.next = some n → n.ready = true)
    (n : NextKey) (deriving_ : n.ready = false) : (x.dropKey s).next = some n ↔ x.next = some n := by
  cases s with
  | next => exact ⟨fun h => (nomatch h), fun h => absurd ((still rfl n h).symm.trans deriving_) Bool.noConfusion⟩
  | current => exact Iff.rfl
  | previous => exact Iff.rfl

theorem Tunnel.inDerivation_modKey (x : Tunnel) (s : Slot) (f : KeyRecord → KeyRecord) :
    (x.modKey s f).inDerivation = x.inDerivation := by cases s <;> rfl

theorem Tunnel.inDerivation_dropKey (x : Tunnel) (s : Slot) : (x.dropKey s).inDerivation = x.inDerivation := by
  cases s <;> rfl

/-- The frame in work leaves the engine, and the key that it bound is released (R56, R69). -/
theorem KeysLaw.release {d : Device} (law : KeysLaw d) {w : InWork} (busy : d.engine.inWork = some w) :
    KeysLaw (({ d with engine := { d.engine with inWork := none } } : Device).releaseKey w.frame.tunnel w.entry) := by
  obtain ⟨s, k, is, named⟩ := law.work w busy
  have bound : k.bound = true := (law.bound _ s k is).mpr ⟨w, busy, rfl, named.symm⟩
  have still : s = .next → ∀ n, (d.tunnel w.frame.tunnel).next = some n → n.ready = true := by
    rintro rfl n next
    refine Classical.byContradiction fun deriving_ => ?_
    obtain ⟨unbound, -⟩ := law.deriving_ _ n next (Bool.eq_false_iff.mpr deriving_)
    have same : n.key = k := Option.some.inj ((Device.holds_next next).symm.trans is)
    exact absurd (bound.symm.trans (same ▸ unbound)) Bool.noConfusion
  have found : (d.tunnel w.frame.tunnel).slotOf w.entry = some s := named ▸ Device.slotOf_of_holds law is
  generalize free_is : (fun k : KeyRecord => { k with bound := false }) = free
  have unmarked : ∀ r, ((d.tunnel w.frame.tunnel).modKey s free).key? r
      = if r = s then some (free k) else (d.tunnel w.frame.tunnel).key? r := by
    intro r
    rw [Tunnel.key?_modKey]
    split
    next here =>
      rw [here, show (d.tunnel w.frame.tunnel).key? s = some k from is]
      rfl
    next => rfl
  let e : Device := { d with engine := { d.engine with inWork := none } }
  have record : (e.modTunnel w.frame.tunnel (·.modKey s free)).tunnel w.frame.tunnel
      = (d.tunnel w.frame.tunnel).modKey s free := by
    rw [Device.tunnel_modTunnel, if_pos rfl]
    rfl
  have others : ∀ u, u ≠ w.frame.tunnel → (e.modTunnel w.frame.tunnel (·.modKey s free)).tunnel u = d.tunnel u := by
    intro u away
    rw [Device.tunnel_modTunnel, if_neg away]
    rfl
  rw [Device.releaseKey_eq (d := e) found is, free_is]
  cases retire : k.retirePending with
  | false =>
    rw [if_neg Bool.false_ne_true]
    refine law.unbind (o := some (free k)) busy rfl is named rfl (fun e => (if_neg List.not_mem_nil).symm) others
      (fun r => ?_) (fun m h => ?_) (fun n deriving_ => ?_) ?_
    · rw [record]
      exact unmarked r
    · obtain rfl := Option.some.inj h
      exact free_is ▸ ⟨rfl, rfl, retire⟩
    · rw [record]
      exact Tunnel.next_modKey still free n deriving_
    · rw [record]
      exact Tunnel.inDerivation_modKey _ _ _
  | true =>
    rw [if_pos rfl]
    have gone : ((((e.modTunnel w.frame.tunnel (·.modKey s free)).setEntry w.entry .free).modTunnel w.frame.tunnel
        (·.dropKey s)).tunnel w.frame.tunnel) = ((d.tunnel w.frame.tunnel).modKey s free).dropKey s := by
      rw [Device.tunnel_modTunnel, if_pos rfl, ← record]
      rfl
    have still' : s = .next → ∀ n, ((d.tunnel w.frame.tunnel).modKey s free).next = some n → n.ready = true := by
      rintro rfl n next
      obtain ⟨n', next', rfl⟩ := Option.map_eq_some_iff.mp next
      exact still rfl n' next'
    refine law.unbind (o := none) busy rfl is named rfl (fun i => ?_) (fun u away => ?_) (fun r => ?_)
      (fun m h => (nomatch h)) (fun n deriving_ => ?_) ?_
    · refine ((e.modTunnel w.frame.tunnel (·.modKey s free)).entry_setEntry w.entry i .free).trans ?_
      simp only [Option.isSome_none, Bool.false_eq_true, if_false, List.mem_singleton, named]
      rfl
    · exact ((Device.tunnel_modTunnel ..).trans (if_neg away)).trans (others u away)
    · rw [gone, Tunnel.key?_dropKey]
      split
      · rfl
      next away => rw [unmarked, if_neg away]
    · rw [gone]
      exact (Tunnel.next_dropKey still' n deriving_).trans (Tunnel.next_modKey still free n deriving_)
    · rw [gone]
      exact (Tunnel.inDerivation_dropKey _ _).trans (Tunnel.inDerivation_modKey _ _ _)

/-! ### Derivations -/

/-- Entries that are free or in use as they were. -/
theorem KeysLaw.rekey {a b : Device} (law : KeysLaw a) (jobs : b.keys.jobs = a.keys.jobs) (engine : b.engine = a.engine)
    (tunnels : ∀ t, b.tunnel t = a.tunnel t) (free : ∀ e, b.keys.entry e = .free ↔ a.keys.entry e = .free) :
    KeysLaw b := by
  have mid : KeysLaw { a with keys := { a.keys with entries := b.keys.entries } } :=
    { law with used := fun e => (not_congr (free e)).trans (law.used e) }
  have same : SameKeys { a with keys := { a.keys with entries := b.keys.entries } } b :=
    ⟨fun _ => rfl, by rw [jobs], by rw [engine], fun t => (tunnels t).symm ▸ {}⟩
  exact mid.congr same

/-- A key installed in an ABSENT NEXT slot, its entry taken and its job queued (R59). -/
theorem KeysLaw.install {a b : Device} (law : KeysLaw a) {t epoch entry : Nat} {j : Job} (absent : (a.tunnel t).next = none)
    (free : a.keys.entry entry = .free) (small : entry < 1024) (job : j.tunnel = t ∧ j.epoch = epoch ∧ j.entry = entry)
    (jobs : b.keys.jobs = a.keys.jobs ++ [j])
    (entries : ∀ e, b.keys.entry e = if e = entry then .blank else a.keys.entry e)
    (tunnels : ∀ u, b.tunnel u = if u = t then
      { a.tunnel t with next := some ⟨false, KeyRecord.installed epoch entry⟩, inDerivation := true } else a.tunnel u)
    (inWork : b.engine.inWork = a.engine.inWork) : KeysLaw b := by
  have fresh : ∀ u s k, a.Holds u s k → k.entry ≠ entry := fun u s k is same =>
    (law.used entry).mpr ⟨u, s, k, is, same⟩ free
  have holds : ∀ u s k, b.Holds u s k ↔
      a.Holds u s k ∨ (u = t ∧ s = .next ∧ k = KeyRecord.installed epoch entry) := by
    intro u s k
    unfold Device.Holds
    rw [tunnels]
    by_cases here : u = t
    · subst here
      cases s <;> simp [Tunnel.key?, absent, eq_comm]
    · simp [here]
  have new : b.Holds t .next (KeyRecord.installed epoch entry) := (holds _ _ _).mpr (.inr ⟨rfl, rfl, rfl⟩)
  have next : ∀ u n, (b.tunnel u).next = some n ↔
      (a.tunnel u).next = some n ∨ (u = t ∧ n = ⟨false, KeyRecord.installed epoch entry⟩) := by
    intro u n
    rw [tunnels]
    by_cases here : u = t
    · subst here
      simp [absent, eq_comm]
    · simp [here]
  have none_ : ∀ j' ∈ a.keys.jobs, j'.tunnel ≠ t := by
    intro j' is here
    obtain ⟨n, next, -⟩ := law.job j' is
    exact nomatch (here ▸ absent).symm.trans next
  obtain ⟨job_tunnel, job_epoch, job_entry⟩ := job
  refine ⟨fun e => ?_, fun u s k v r m is is' same => ?_, fun u s k is => ?_, fun j' is => ?_, ?_, fun u n is ready => ?_,
    fun u => ?_, fun u s k is => ?_, fun w is => ?_, fun u s k is retire => ?_⟩
  · rw [entries]
    split
    next here => exact ⟨fun _ => ⟨t, .next, _, new, here.symm⟩, fun _ => KeyEntry.noConfusion⟩
    next away =>
      refine (law.used e).trans ⟨fun ⟨u, s, k, is, same⟩ => ⟨u, s, k, (holds u s k).mpr (.inl is), same⟩,
        fun ⟨u, s, k, is, same⟩ => ?_⟩
      obtain old | ⟨-, -, rfl⟩ := (holds u s k).mp is
      · exact ⟨u, s, k, old, same⟩
      · exact absurd same.symm away
  · obtain old | ⟨rfl, rfl, rfl⟩ := (holds u s k).mp is <;> obtain old' | ⟨rfl, rfl, rfl⟩ := (holds v r m).mp is'
    · exact law.apart u s k v r m old old' same
    · exact absurd same (fresh u s k old)
    · exact absurd same.symm (fresh v r m old')
    · exact ⟨rfl, rfl⟩
  · obtain old | ⟨rfl, rfl, rfl⟩ := (holds u s k).mp is
    · exact law.below u s k old
    · exact small
  · rw [jobs] at is
    obtain old | rfl := (List.mem_append.mp is).imp_right List.mem_singleton.mp
    · obtain ⟨n, was, rest⟩ := law.job j' old
      exact ⟨n, (next _ n).mpr (.inl was), rest⟩
    · exact ⟨_, (next _ _).mpr (.inr ⟨job_tunnel, rfl⟩), rfl, job_epoch.symm, job_entry.symm⟩
  · rw [jobs, List.map_append]
    refine nodup_append_iff.mpr ⟨law.jobs, List.pairwise_singleton _ _, fun u is is' => ?_⟩
    obtain ⟨j', old, rfl⟩ := List.mem_map.mp is
    exact none_ j' old ((List.mem_singleton.mp is').trans job_tunnel)
  · rw [jobs]
    obtain old | ⟨rfl, rfl⟩ := (next u n).mp is
    · obtain ⟨unbound, j', is', tunnel⟩ := law.deriving_ u n old ready
      exact ⟨unbound, j', List.mem_append_left _ is', tunnel⟩
    · exact ⟨rfl, j, List.mem_append_right _ (List.mem_singleton_self _), job_tunnel⟩
  · by_cases here : u = t
    · subst here
      have flight : (b.tunnel u).inDerivation = true := by rw [tunnels, if_pos rfl]
      exact ⟨fun _ => ⟨_, (next u _).mpr (.inr ⟨rfl, rfl⟩), rfl⟩, fun _ => flight⟩
    · rw [tunnels, if_neg here]
      exact law.flight u
  · rw [inWork]
    obtain old | ⟨rfl, rfl, rfl⟩ := (holds u s k).mp is
    · exact law.bound u s k old
    · refine ⟨fun h => (nomatch h), fun ⟨w, busy, tunnel, same⟩ => ?_⟩
      obtain ⟨r, m, old, named⟩ := law.work w busy
      exact absurd (named.trans same) (fresh _ r m old)
  · rw [inWork] at is
    obtain ⟨s, k, old, named⟩ := law.work w is
    exact ⟨s, k, (holds _ s k).mpr (.inl old), named⟩
  · obtain old | ⟨rfl, rfl, rfl⟩ := (holds u s k).mp is
    · exact law.pending u s k old retire
    · exact nomatch retire

/-- The job in progress ends: its key is READY (R62). -/
theorem KeysLaw.deliver {a b : Device} (law : KeysLaw a) {j : Job} {rest : List Job} (jobs : a.keys.jobs = j :: rest)
    (left : b.keys.jobs = rest) (entries : ∀ e, b.keys.entry e = a.keys.entry e)
    (tunnels : ∀ u, b.tunnel u = if u = j.tunnel then
      { a.tunnel j.tunnel with
        next := (a.tunnel j.tunnel).next.map fun n => { n with ready := true }, inDerivation := false } else a.tunnel u)
    (inWork : b.engine.inWork = a.engine.inWork) : KeysLaw b := by
  have holds : ∀ u s k, b.Holds u s k ↔ a.Holds u s k := by
    intro u s k
    unfold Device.Holds
    rw [tunnels]
    by_cases here : u = j.tunnel
    · subst here
      cases s <;> simp [Tunnel.key?, Function.comp_def]
    · simp [here]
  have next : ∀ u n, n.ready = false → ((b.tunnel u).next = some n ↔ u ≠ j.tunnel ∧ (a.tunnel u).next = some n) := by
    intro u n deriving_
    rw [tunnels]
    by_cases here : u = j.tunnel
    · subst here
      rw [if_pos rfl]
      refine ⟨fun h => ?_, fun h => absurd rfl h.1⟩
      obtain ⟨n', -, rfl⟩ := Option.map_eq_some_iff.mp h
      exact nomatch deriving_
    · simp [here]
  have once := law.jobs
  rw [jobs, List.map_cons, List.nodup_cons] at once
  obtain ⟨alone, once⟩ := once
  have job : ∀ j' ∈ rest, j' ∈ a.keys.jobs ∧ j'.tunnel ≠ j.tunnel := fun j' is =>
    ⟨jobs ▸ List.mem_cons_of_mem _ is, fun same => alone (List.mem_map.mpr ⟨j', is, same⟩)⟩
  refine ⟨fun e => ?_, fun u s k v r m is is' => law.apart u s k v r m ((holds ..).mp is) ((holds ..).mp is'),
    fun u s k is => law.below u s k ((holds ..).mp is), fun j' is => ?_, left ▸ once, fun u n is ready => ?_,
    fun u => ?_, fun u s k is => ?_, fun w is => ?_, fun u s k is => law.pending u s k ((holds ..).mp is)⟩
  · simp only [entries, holds]
    exact law.used e
  · obtain ⟨old, other⟩ := job j' (left ▸ is)
    obtain ⟨n, was, ready, rest⟩ := law.job j' old
    exact ⟨n, (next _ n ready).mpr ⟨other, was⟩, ready, rest⟩
  · obtain ⟨other, was⟩ := (next u n ready).mp is
    obtain ⟨unbound, j', old, tunnel⟩ := law.deriving_ u n was ready
    obtain rfl | old := List.mem_cons.mp (jobs ▸ old)
    · exact absurd tunnel.symm other
    · exact ⟨unbound, j', left.symm ▸ old, tunnel⟩
  · by_cases here : u = j.tunnel
    · have flight : (b.tunnel u).inDerivation = false := by rw [tunnels, if_pos here]
      refine ⟨fun h => absurd (h.symm.trans flight) Bool.noConfusion, fun ⟨n, is, ready⟩ => ?_⟩
      exact absurd here ((next u n ready).mp is).1
    · rw [tunnels, if_neg here]
      exact law.flight u
  · rw [inWork]
    exact law.bound u s k ((holds ..).mp is)
  · obtain ⟨s, k, old, named⟩ := law.work w (inWork ▸ is)
    exact ⟨s, k, (holds ..).mpr old, named⟩

end Sys2Proof.Machine
end

/-! PROOF. The retry queue's law, tunnel by tunnel: what isolation, the end of a hold, a start, the end of a proof, an
opening and a closing leave of it (R36, R39, R41, R129, R140, R141, R149, R150, R156). -/
section

namespace Sys2Proof.Machine

-- One theorem at a time, so that the threads of the whole text stay within its memory.
set_option Elab.async false

theorem Device.eachTunnel (d : Device) (t : Nat) (f : Tunnel → Tunnel) {P : Tunnel → Tunnel → Prop} (same : ∀ x, P x x)
    (here : P (d.tunnel t) (f (d.tunnel t))) (u : Nat) : P (d.tunnel u) ((d.modTunnel t f).tunnel u) := by
  rw [Device.tunnel_modTunnel]
  split
  next is => exact is ▸ here
  next => exact same _

/-- A RETRY proof runs on a tunnel. -/
def Device.Retries (d : Device) (t : Nat) : Prop := ∃ r, d.proofs.running = some r ∧ r.purpose = .retry ∧ r.tunnel = t

theorem Device.retries_of_some {d : Device} {r : ProofRecord} (h : d.proofs.running = some r) (t : Nat) :
    d.Retries t ↔ r.purpose = .retry ∧ r.tunnel = t := by simp [Device.Retries, h]

theorem Device.not_retries_of_none {d : Device} (h : d.proofs.running = none) (t : Nat) : ¬ d.Retries t := by
  simp [Device.Retries, h]

/-- The retry queue's law for one tunnel: whether it waits in the queue, a RETRY proof runs on it, it is being closed. -/
structure Tunnel.Retried (x : Tunnel) (t : Nat) (waits runs closing : Prop) : Prop where
  member : waits → x.state = .isolated ∧ x.holdDeadline = none
  running : runs → x.state = .isolated ∧ x.holdDeadline = none ∧ ¬ waits
  hold : x.holdDeadline.isSome = true → x.state = .isolated ∨ closing
  isolated : x.state = .isolated → x.holdDeadline.isSome = true ∨ waits ∨ runs
  beyond : 480 ≤ t → x.state = .empty
  closing : closing → x.state = .closing

theorem retryLaw_iff_each (g : Ghost) (d : Device) : RetryLaw g d ↔ d.proofs.retry.Nodup ∧
    ∀ t, (d.tunnel t).Retried t (t ∈ d.proofs.retry) (d.Retries t) (g.closing = some t) := by
  constructor
  · rintro ⟨nodup, member, running, hold, isolated, beyond, closing⟩
    refine ⟨nodup, fun t => ⟨member t, fun ⟨r, is, purpose, tunnel⟩ => tunnel ▸ running r is purpose, hold t, isolated t,
      beyond t, closing t⟩⟩
  · rintro ⟨nodup, each⟩
    exact ⟨nodup, fun t => (each t).member, fun r is purpose => (each r.tunnel).running ⟨r, is, purpose, rfl⟩,
      fun t => (each t).hold, fun t => (each t).isolated, fun t => (each t).beyond, fun t => (each t).closing⟩

/-- A change that reaches one tunnel. -/
theorem RetryLaw.step {g h : Ghost} {a b : Device} (t : Nat) (law : RetryLaw g a) (nodup : b.proofs.retry.Nodup)
    (others : ∀ u, u ≠ t → b.tunnel u = a.tunnel u ∧ (u ∈ b.proofs.retry ↔ u ∈ a.proofs.retry)
      ∧ (b.Retries u ↔ a.Retries u) ∧ (h.closing = some u ↔ g.closing = some u))
    (here : (a.tunnel t).Retried t (t ∈ a.proofs.retry) (a.Retries t) (g.closing = some t) →
      (b.tunnel t).Retried t (t ∈ b.proofs.retry) (b.Retries t) (h.closing = some t)) : RetryLaw h b := by
  obtain ⟨-, each⟩ := (retryLaw_iff_each g a).mp law
  refine (retryLaw_iff_each h b).mpr ⟨nodup, fun u => ?_⟩
  by_cases is : u = t
  · subst is
    exact here (each u)
  · obtain ⟨record, waits, runs, closing⟩ := others u is
    rw [record, propext waits, propext runs, propext closing]
    exact each u

/-- A tunnel that was not ISOLATED is so with its hold running, or not at all and without a hold. -/
theorem Tunnel.Retried.settle {x y : Tunnel} {t : Nat} {waits runs closing : Prop} (law : x.Retried t waits runs closing)
    (was : x.state ≠ .isolated) (now : y.state = .isolated ∧ y.holdDeadline.isSome = true
      ∨ y.state ≠ .isolated ∧ y.holdDeadline = none)
    (beyond : 480 ≤ t → x.state = .empty → y.state = .empty) (open_ : ¬ closing) : y.Retried t waits runs closing where
  member waits := absurd (law.member waits).1 was
  running runs := absurd (law.running runs).1 was
  hold some_ := by
    obtain ⟨isolated, -⟩ | ⟨-, none_⟩ := now
    · exact .inl isolated
    · rw [none_] at some_
      exact nomatch some_
  isolated isolated := by
    obtain ⟨-, some_⟩ | ⟨not_, -⟩ := now
    · exact .inl some_
    · exact absurd isolated not_
  beyond high := beyond high (law.beyond high)
  closing is := absurd is open_

/-- A tunnel that was not ISOLATED, and has no hold where it is not being closed. -/
theorem Tunnel.Retried.no_hold {x : Tunnel} {t : Nat} {waits runs closing : Prop} (law : x.Retried t waits runs closing)
    (was : x.state ≠ .isolated) (open_ : ¬ closing) : x.holdDeadline = none := by
  refine Classical.byContradiction fun some_ => ?_
  obtain isolated | is := law.hold (Option.ne_none_iff_isSome.mp some_)
  · exact was isolated
  · exact open_ is

/-- A tunnel's record changed, the proof unit as it stood. -/
theorem RetryLaw.modTunnel {g : Ghost} {d : Device} (law : RetryLaw g d) (t : Nat) (f : Tunnel → Tunnel)
    (here : (d.tunnel t).Retried t (t ∈ d.proofs.retry) (d.Retries t) (g.closing = some t) →
      (f (d.tunnel t)).Retried t (t ∈ d.proofs.retry) (d.Retries t) (g.closing = some t)) :
    RetryLaw g (d.modTunnel t f) := by
  refine law.step t law.nodup (fun u away => ⟨?_, Iff.rfl, Iff.rfl, Iff.rfl⟩) ?_
  · rw [Device.tunnel_modTunnel, if_neg away]
  · rw [Device.tunnel_modTunnel, if_pos rfl]
    exact here

/-- An IN_SERVICE tunnel becomes ISOLATED with its hold started (R129). -/
theorem RetryLaw.isolate {g : Ghost} {d : Device} (law : RetryLaw g d) {t : Nat} (service : (d.tunnel t).state = .inService)
    (at_ : Clock) :
    RetryLaw g (d.modTunnel t fun x => { x with state := .isolated, holdDeadline := some at_ }) := by
  refine law.modTunnel t _ fun each => each.settle (by rw [service]; exact TunnelState.noConfusion) (.inl ⟨rfl, rfl⟩)
    (fun _ empty => nomatch service.symm.trans empty) fun closing => ?_
  exact nomatch service.symm.trans (each.closing closing)

/-- A tunnel whose hold has ended joins the tail of the queue (R140, R156). -/
theorem RetryLaw.join {g : Ghost} {d : Device} (law : RetryLaw g d) {t : Nat} {f : Tunnel → Tunnel}
    (away : t ∉ d.proofs.retry) (idle : ¬ d.Retries t) (isolated : (f (d.tunnel t)).state = .isolated)
    (none_ : (f (d.tunnel t)).holdDeadline = none) (small : (d.tunnel t).state ≠ .empty)
    (open_ : g.closing ≠ some t) :
    RetryLaw g { d.modTunnel t f with proofs := { d.proofs with retry := d.proofs.retry ++ [t] } } := by
  refine law.step t ?_ (fun u other => ⟨?_, ?_, Iff.rfl, Iff.rfl⟩) fun each => ?_
  · exact nodup_append_iff.mpr ⟨law.nodup, List.pairwise_singleton _ t, fun u is is' =>
      away (List.mem_singleton.mp is' ▸ is)⟩
  · exact (Device.tunnel_modTunnel ..).trans (if_neg other)
  · show u ∈ d.proofs.retry ++ [t] ↔ _
    simp [other]
  · have record : ({ d.modTunnel t f with proofs := { d.proofs with retry := d.proofs.retry ++ [t] } } : Device).tunnel t
        = f (d.tunnel t) := (Device.tunnel_modTunnel ..).trans (if_pos rfl)
    rw [record]
    refine ⟨fun _ => ⟨isolated, none_⟩, fun runs => absurd runs idle, fun some_ => ?_, fun _ => .inr (.inl ?_),
      fun high => absurd (each.beyond high) small, fun closing => absurd closing open_⟩
    · rw [none_] at some_
      exact nomatch some_
    · exact List.mem_append_right _ (List.mem_singleton_self t)

/-- The head of the queue leaves it and a RETRY proof starts on it (R141). -/
theorem RetryLaw.start {g : Ghost} {a b : Device} (law : RetryLaw g a) {r : ProofRecord}
    (retry : a.proofs.retry = r.tunnel :: b.proofs.retry) (idle : a.proofs.running = none)
    (running : b.proofs.running = some r) (purpose : r.purpose = .retry) (tunnels : ∀ u, b.tunnel u = a.tunnel u) :
    RetryLaw g b := by
  have nodup := law.nodup
  rw [retry, List.nodup_cons] at nodup
  obtain ⟨alone, nodup⟩ := nodup
  have runs : ∀ u, b.Retries u ↔ u = r.tunnel := fun u => by
    rw [Device.retries_of_some running]
    exact ⟨fun h => h.2.symm, fun h => ⟨purpose, h.symm⟩⟩
  refine law.step r.tunnel nodup (fun u other => ⟨tunnels u, ?_, ?_, Iff.rfl⟩) fun each => ?_
  · rw [retry]
    simp [other]
  · rw [runs]
    exact ⟨fun h => absurd h other, fun h => absurd h (Device.not_retries_of_none idle u)⟩
  · obtain ⟨isolated, none_⟩ := each.member (by rw [retry]; exact List.mem_cons_self ..)
    rw [tunnels]
    exact ⟨fun is => absurd is alone, fun _ => ⟨isolated, none_, alone⟩, each.hold,
      fun _ => .inr (.inr ((runs _).mpr rfl)), each.beyond, each.closing⟩

/-- An OPERATIONS proof starts, with none running (R143). -/
theorem RetryLaw.startOther {g : Ghost} {a b : Device} (law : RetryLaw g a) {r : ProofRecord}
    (retry : b.proofs.retry = a.proofs.retry) (idle : a.proofs.running = none) (running : b.proofs.running = some r)
    (purpose : r.purpose = .operations) (tunnels : ∀ u, b.tunnel u = a.tunnel u) : RetryLaw g b := by
  obtain ⟨nodup, each⟩ := (retryLaw_iff_each g a).mp law
  refine (retryLaw_iff_each g b).mpr ⟨retry ▸ nodup, fun u => ?_⟩
  have runs : b.Retries u ↔ a.Retries u := by
    rw [Device.retries_of_some running, purpose]
    exact ⟨fun h => (nomatch h.1), fun h => absurd h (Device.not_retries_of_none idle u)⟩
  rw [tunnels, retry, propext runs]
  exact each u

/-- The running proof ends: a RETRY proof leaves its tunnel out of ISOLATED, or ISOLATED with its hold running
(R149, R150). -/
theorem RetryLaw.endRun {g : Ghost} {a b : Device} (law : RetryLaw g a) {r : ProofRecord}
    (running : a.proofs.running = some r) (idle : b.proofs.running = none) (retry : b.proofs.retry = a.proofs.retry)
    (others : ∀ u, u ≠ r.tunnel → b.tunnel u = a.tunnel u)
    (other : r.purpose = .operations → (a.tunnel r.tunnel).SameLife (b.tunnel r.tunnel))
    (ends : r.purpose = .retry →
      ((b.tunnel r.tunnel).state = .isolated ∧ (b.tunnel r.tunnel).holdDeadline.isSome = true
        ∨ ((b.tunnel r.tunnel).state = .inService ∨ (b.tunnel r.tunnel).state = .failed)
          ∧ (b.tunnel r.tunnel).holdDeadline = none)) : RetryLaw g b := by
  have quiet : ∀ u, ¬ b.Retries u := Device.not_retries_of_none idle
  cases purpose : r.purpose with
  | operations =>
    have ran : ∀ u, ¬ a.Retries u := fun u runs =>
      nomatch purpose.symm.trans ((Device.retries_of_some running u).mp runs).1
    let e : Device := { a with proofs := { a.proofs with running := none } }
    have mid : RetryLaw g e := by
      obtain ⟨nodup, each⟩ := (retryLaw_iff_each g a).mp law
      refine (retryLaw_iff_each g e).mpr ⟨nodup, fun u => ?_⟩
      have same := each u
      rwa [propext (iff_of_false (ran u) (Device.not_retries_of_none (d := e) rfl u))] at same
    have same : SameLife e b := by
      refine ⟨retry, by rw [idle], fun u => ?_⟩
      by_cases here : u = r.tunnel
      · subst here
        exact other purpose
      · have same : b.tunnel u = e.tunnel u := others u here
        exact same ▸ {}
    exact mid.congr same
  | retry =>
    have ran : ∀ u, a.Retries u ↔ u = r.tunnel := fun u => by
      rw [Device.retries_of_some running]
      exact ⟨fun h => h.2.symm, fun h => ⟨purpose, h.symm⟩⟩
    refine law.step r.tunnel (retry ▸ law.nodup) (fun u away => ⟨others u away, by rw [retry], ?_, Iff.rfl⟩) fun each => ?_
    · exact iff_of_false (quiet u) fun h => away ((ran u).mp h)
    · obtain ⟨isolated, -, alone⟩ := each.running ((ran _).mpr rfl)
      have open_ : g.closing ≠ some r.tunnel := fun is => nomatch isolated.symm.trans (each.closing is)
      have small : ¬ 480 ≤ r.tunnel := fun high => nomatch isolated.symm.trans (each.beyond high)
      obtain ⟨now, some_⟩ | ⟨now, none_⟩ := ends purpose
      · exact ⟨fun is => absurd (retry ▸ is) alone, fun h => absurd h (quiet _), fun _ => .inl now, fun _ => .inl some_,
          fun high => absurd high small, fun is => absurd is open_⟩
      · refine ⟨fun is => absurd (retry ▸ is) alone, fun h => absurd h (quiet _), fun is => ?_, fun is => ?_,
          fun high => absurd high small, fun is => absurd is open_⟩
        · rw [none_] at is
          exact nomatch is
        · rw [is] at now
          exact now.elim TunnelState.noConfusion TunnelState.noConfusion

/-- A tunnel is closed: it leaves the queue, and a proof on it ends; its hold may still run (R39, R151). -/
theorem RetryLaw.close {g : Ghost} {a b : Device} (law : RetryLaw g a) {t : Nat} (open_ : g.closing = none)
    (live : (a.tunnel t).state ≠ .empty) (closing : (b.tunnel t).state = .closing)
    (others : ∀ u, u ≠ t → b.tunnel u = a.tunnel u) (retry : b.proofs.retry = a.proofs.retry.filter fun u => u != t)
    (running : b.proofs.running =
      if a.proofs.running.any (fun r => decide (r.tunnel = t)) then none else a.proofs.running) :
    RetryLaw { g with closing := some t } b := by
  have waits : t ∉ b.proofs.retry := by
    rw [retry]
    simp
  have runs : ∀ u, b.Retries u ↔ u ≠ t ∧ a.Retries u := by
    intro u
    cases was : a.proofs.running with
    | none =>
      rw [was] at running
      exact iff_of_false (Device.not_retries_of_none running u) fun h => Device.not_retries_of_none was u h.2
    | some r =>
      rw [was, Option.any_some] at running
      by_cases here : r.tunnel = t
      · rw [if_pos (decide_eq_true here)] at running
        refine iff_of_false (Device.not_retries_of_none running u) fun ⟨away, h⟩ => ?_
        exact away (((Device.retries_of_some was u).mp h).2.symm.trans here)
      · rw [if_neg fun h => here (of_decide_eq_true h)] at running
        rw [Device.retries_of_some running, Device.retries_of_some was]
        exact ⟨fun h => ⟨fun same => here (h.2.trans same), h⟩, fun h => h.2⟩
  refine law.step t (retry ▸ law.nodup.filter _) (fun u away => ⟨others u away, ?_, ?_, ?_⟩) fun each => ?_
  · rw [retry]
    simp [away]
  · rw [runs]
    exact and_iff_right away
  · rw [open_]
    exact iff_of_false (fun h => away (Option.some.inj h).symm) fun h => (nomatch h)
  · refine ⟨fun is => absurd is waits, fun is => absurd rfl ((runs t).mp is).1, fun _ => .inr rfl, fun is => ?_,
      fun high => absurd (each.beyond high) live, fun _ => closing⟩
    exact nomatch closing.symm.trans is

/-- The hold of a tunnel that has been closed is stopped (R39). -/
theorem RetryLaw.closed {g : Ghost} {d : Device} {t : Nat} (law : RetryLaw { g with closing := some t } d)
    {f : Tunnel → Tunnel} (state : (f (d.tunnel t)).state = (d.tunnel t).state)
    (none_ : (f (d.tunnel t)).holdDeadline = none) :
    RetryLaw { g with closing := none } (d.modTunnel t f) := by
  have closing := law.closing t rfl
  refine law.step t law.nodup (fun u away => ⟨?_, Iff.rfl, Iff.rfl, ?_⟩) fun each => ?_
  · rw [Device.tunnel_modTunnel, if_neg away]
  · exact iff_of_false (fun h => (nomatch h)) fun h => away (Option.some.inj h).symm
  · rw [Device.tunnel_modTunnel, if_pos rfl]
    rw [closing] at state
    refine ⟨fun is => (nomatch closing.symm.trans (each.member is).1),
      fun is => (nomatch closing.symm.trans (each.running is).1), fun is => ?_,
      fun is => (nomatch state.symm.trans is), fun high => (nomatch closing.symm.trans (each.beyond high)),
      fun h => (nomatch h)⟩
    rw [none_] at is
    exact nomatch is

/-- A tunnel that was not ISOLATED changes its state, its hold as it stood (R36, R41). -/
theorem RetryLaw.turn {g : Ghost} {d : Device} (law : RetryLaw g d) {t : Nat} {f : Tunnel → Tunnel}
    (was : (d.tunnel t).state ≠ .isolated) (now : (f (d.tunnel t)).state ≠ .isolated)
    (hold : (f (d.tunnel t)).holdDeadline = (d.tunnel t).holdDeadline)
    (small : t < 480 ∨ (f (d.tunnel t)).state = .empty) (open_ : g.closing ≠ some t) : RetryLaw g (d.modTunnel t f) := by
  refine law.modTunnel t f fun each => each.settle was (.inr ⟨now, hold.trans (each.no_hold was open_)⟩) (fun high _ => ?_)
    open_
  exact small.resolve_left (Nat.not_lt.mpr high)

end Sys2Proof.Machine
end

/-! PROOF. The ends of the frame in work, and the frames that the part builds, the ports submit and the engine takes, each
as one step that keeps every invariant (R15, R19, R21, R56, R69, R96..R102, R109, R112). -/
section

namespace Sys2Proof.Machine

-- One theorem at a time, so that the threads of the whole text stay within its memory.
set_option Elab.async false

/-! ### Edits of keys -/

theorem Tunnel.SameLife.trans {x y z : Tunnel} (h : x.SameLife y) (k : y.SameLife z) : x.SameLife z := by
  refine ⟨?_, k.hold.trans h.hold⟩
  obtain same | ⟨before, after⟩ := h.state
  · rw [← same]
    exact k.state
  · obtain same | ⟨wrong, -⟩ := k.state
    · exact .inr ⟨before, same.trans after⟩
    · exact nomatch after.symm.trans wrong

/-- Only tunnels, entries and the bank change, and of a tunnel neither its hold nor its tag. -/
structure KeyEdit (a b : Device) : Prop where
  rest : { b with tunnels := a.tunnels, keys := { b.keys with entries := a.keys.entries }, bank := a.bank } = a := by rfl
  life : ∀ u, (a.tunnel u).SameLife (b.tunnel u) := by exact fun _ => {}
  tag : ∀ u, (b.tunnel u).closeTag = (a.tunnel u).closeTag := by exact fun _ => rfl

namespace KeyEdit

theorem refl (d : Device) : KeyEdit d d := {}

theorem trans {a b c : Device} (h : KeyEdit a b) (k : KeyEdit b c) : KeyEdit a c where
  rest := (congrArg (fun z : Device =>
    { z with tunnels := a.tunnels, keys := { z.keys with entries := a.keys.entries }, bank := a.bank }) k.rest).trans h.rest
  life u := (h.life u).trans (k.life u)
  tag u := (k.tag u).trans (h.tag u)

theorem modTunnel (d : Device) (t : Nat) (f : Tunnel → Tunnel) (life : (d.tunnel t).SameLife (f (d.tunnel t)))
    (tag : (f (d.tunnel t)).closeTag = (d.tunnel t).closeTag) : KeyEdit d (d.modTunnel t f) :=
  ⟨rfl, d.eachTunnel t f (P := Tunnel.SameLife) (fun _ => {}) life,
    d.eachTunnel t f (P := fun x y => y.closeTag = x.closeTag) (fun _ => rfl) tag⟩

theorem setEntry (d : Device) (e : Nat) (v : KeyEntry) : KeyEdit d (d.setEntry e v) := {}

theorem give (d : Device) (e : EventSource) (c : Option Nat) : KeyEdit d (d.give e c) := {}

theorem modKey (d : Device) (t : Nat) (s : Slot) (f : KeyRecord → KeyRecord) :
    KeyEdit d (d.modTunnel t (·.modKey s f)) := by
  cases s <;> exact modTunnel d t _ {} rfl

theorem dropKey (d : Device) (t : Nat) (s : Slot) : KeyEdit d (d.dropKey t s) := by
  unfold Device.dropKey
  split
  next k _ =>
    refine (setEntry d k.entry .free).trans ?_
    cases s <;> exact modTunnel _ t _ {} rfl
  · exact refl d

theorem retireKey (d : Device) (t : Nat) (s : Slot) : KeyEdit d (d.retireKey t s) := by
  unfold Device.retireKey
  split
  · split
    · exact modKey d t s _
    · exact dropKey d t s
  · exact refl d

theorem releaseKey (d : Device) (t entry : Nat) : KeyEdit d (d.releaseKey t entry) := by
  unfold Device.releaseKey
  split
  · simp only
    split
    · exact (modKey d t _ _).trans (dropKey _ t _)
    · exact modKey d t _ _
  · exact refl d

theorem promote (d : Device) (t : Nat) : KeyEdit d (d.promote t).1 := by
  cases next : (d.tunnel t).next with
  | none =>
    unfold Device.promote
    rw [next]
    exact refl d
  | some n =>
    obtain ⟨move, -⟩ := Device.KeyMove.promote next
    refine ⟨move.rest, fun u => ?_, fun u => ?_⟩
    · by_cases here : u = t
      · subst here
        rw [move.record]
        refine ⟨?_, rfl⟩
        by_cases was : (d.tunnel u).state = .provisioned
        · exact .inr ⟨was, if_pos was⟩
        · exact .inl (if_neg was)
      · rw [move.others u here]
        exact {}
    · by_cases here : u = t
      · subst here
        rw [move.record]
      · rw [move.others u here]

variable {a b : Device}

/-- What does not read the tunnels, the entries or the bank stands. -/
theorem stands (h : KeyEdit a b) {α : Type} (f : Device → α)
    (same : f { b with tunnels := a.tunnels, keys := { b.keys with entries := a.keys.entries }, bank := a.bank } = f b
      := by rfl) : f b = f a :=
  same.symm.trans (congrArg f h.rest)

theorem frames (h : KeyEdit a b) : SameFrames a b :=
  ⟨h.stands (·.store), h.stands (·.engine.control), h.stands (·.engine.settle), h.stands (·.engine.bulk),
    h.stands (·.engine.inWork)⟩

theorem places (h : KeyEdit a b) : SamePlaces a b := by
  have port : ∀ p, b.port p = a.port p := fun p => h.stands (·.port p) (by cases p <;> rfl)
  refine ⟨fun p => congrArg PortState.reserved (port p), fun p => ?_, h.tag,
    h.stands fun d => d.keys.jobs.countP fun j => j.owed.isSome, h.stands fun d => (d.saving.bind (·.owed)).isSome⟩
  exact Nat.le_of_eq (by rw [port])

theorem notices (h : KeyEdit a b) : b.traffic.notices.length ≤ a.traffic.notices.length :=
  Nat.le_of_eq (h.stands fun d => d.traffic.notices.length)

theorem sameLife (h : KeyEdit a b) : SameLife a b :=
  ⟨h.stands (·.proofs.retry), h.stands fun d => d.proofs.running.map ProofRecord.core, h.life⟩

end KeyEdit

theorem Keeps.keyEdit {g : Ghost} {a b : Device} (h : KeyEdit a b) (keys : KeysLaw a → KeysLaw b) : Keeps g a g b :=
  .keysOnly keys h.frames h.places h.notices h.sameLife

theorem Keeps.retireKey {g : Ghost} (d : Device) (t : Nat) (s : Slot)
    (still : s = .next → ∀ n, (d.tunnel t).next = some n → n.ready = true) : Keeps g d g (d.retireKey t s) :=
  .keyEdit (.retireKey d t s) (·.retireKey still)

theorem Keeps.promote {g : Ghost} (d : Device) (t : Nat) {n : NextKey} (next : (d.tunnel t).next = some n)
    (ready : n.ready = true) : Keeps g d g (d.promote t).1 :=
  .keyEdit (.promote d t) (·.promote next ready)

/-! ### The frame in work leaves -/

theorem Ghost.held_detach {g : Ghost} {d : Device} {w : InWork} (busy : g.inWork d = some w) :
    (({ g with hand := w.frame :: g.hand, ended := some w } : Ghost).held d).Perm (g.held d) := by
  unfold Ghost.held
  rw [busy, Option.map_some, Option.toList_some, ← List.append_assoc g.hand]
  refine List.Perm.trans ?_ (List.perm_append_singleton _ _).symm
  exact .of_eq (congrArg (w.frame :: ·) (congrArg (g.hand ++ ·) (List.append_nil _)))

theorem Ghost.inWork_of_none {g : Ghost} (none_ : g.ended = none) (d : Device) : g.inWork d = d.engine.inWork := by
  unfold Ghost.inWork
  rw [none_]
  rfl

/-- The frame in work is to end; its key is released later. -/
theorem Keeps.detach {g : Ghost} {d : Device} {w : InWork} (none_ : g.ended = none) (work : d.engine.inWork = some w) :
    Keeps g d { g with hand := w.frame :: g.hand, ended := some w } d := by
  have busy : g.inWork d = some w := (g.inWork_of_none none_ d).trans work
  refine ⟨fun law => law.detach busy, fun law => law.change (fun p => Nat.le_of_eq ?_) (fun _ => Nat.le_refl _)
    (fun _ _ h => h) fun f is => .inl ((Ghost.held_detach busy).mem_iff.mp is), id, (·.ghost),
    fun law => ⟨law.keys, fun v is => work.trans is⟩⟩
  unfold Ghost.owed
  rw [(Ghost.held_detach busy).countP_eq]

/-- The frame in work has ended: it leaves the engine, and its key is released (R56, R69). -/
theorem Keeps.leave {g : Ghost} (d : Device) (w : InWork) :
    Keeps { g with ended := some w } d { g with ended := none }
      (({ d with engine := { d.engine with inWork := none } } : Device).releaseKey w.frame.tunnel w.entry) := by
  have edit := KeyEdit.releaseKey { d with engine := { d.engine with inWork := none } } w.frame.tunnel w.entry
  have keys : BoundLaw { g with ended := some w } d →
      KeysLaw (({ d with engine := { d.engine with inWork := none } } : Device).releaseKey w.frame.tunnel w.entry) :=
    fun law => law.keys.release (law.ended w rfl)
  generalize ({ d with engine := { d.engine with inWork := none } } : Device).releaseKey w.frame.tunnel w.entry = e
    at edit keys
  have waiting : e.engine.waiting = d.engine.waiting := edit.frames.waiting
  have idle : e.engine.inWork = none := edit.frames.inWork
  have held : ({ g with ended := none } : Ghost).held e = ({ g with ended := some w } : Ghost).held d := by
    unfold Ghost.held
    rw [waiting, Ghost.inWork_of_none rfl, idle]
    rfl
  refine ⟨fun law => law.leave edit.frames.store waiting idle, fun law => law.change (fun p => Nat.le_of_eq ?_)
    (fun p => ?_) (fun t _ none_ => (edit.tag t).trans none_) fun f is => .inl (held ▸ is), fun law => ?_,
    fun law => RetryLaw.ghost (g := { g with ended := some w }) (law.congr (b := e) ?_),
    fun law => ⟨keys law, fun _ h => (nomatch h)⟩⟩
  · have same := edit.places.reserved p
    have owed : e.owedElse p = d.owedElse p := edit.places.owedElse p
    unfold Ghost.owed
    rw [held, owed, same]
    rfl
  · rw [edit.places.reserved p]
    exact Nat.add_le_add_right (edit.places.responses p) _
  · have control : e.engine.control = d.engine.control := edit.frames.control
    refine NoticesKept.fewer law (control ▸ .refl _) (fun f is => ?_) (.inr idle) edit.notices
    rwa [edit.frames.settle, edit.frames.bulk] at is
  · exact ⟨edit.sameLife.retry, edit.sameLife.running, edit.life⟩

/-! ### The cells of a frame that ends -/

theorem FramesLaw.nodup_hand {g : Ghost} {d : Device} (law : FramesLaw g d) {f : Frame} (is : f ∈ g.hand) :
    f.cells.Nodup := by
  have apart := law.apart
  exact (List.pairwise_flatMap.mp apart).1 f (Ghost.mem_held_hand is)

/-- The cells of a frame that has not ended are written. -/
theorem Keeps.layHand {g : Ghost} (d : Device) {f : Frame} (is : f ∈ g.hand) (bs : List Byte)
    (fits : f.Fits → bs.length ≤ f.cells.length * 256) : Keeps g d g { d with store := d.store.lay f.cells bs } := by
  refine .storeOnly fun law => law.store (law.ok.lay _ _) (law.zero.lay (law.nodup_hand is)
    (fits (law.fits f (Ghost.mem_held_hand is))) fun n mem free => ?_) rfl rfl fun n _ => ?_
  · have state := law.hand f is n mem
    rw [free] at state
    exact state.elim (fun h => (nomatch h)) fun h => (nomatch h)
  · exact congrArg Cell.state (congrArg (SMap.get Cell.free · n) (CellStore.cells_lay ..))

/-- Cells that are in no frame are freed. -/
theorem Keeps.freeCells {g : Ghost} (d : Device) (cells : List Nat)
    (away : ∀ n ∈ cells, ¬ ((d.store.cell n).state = .queued ∨ (d.store.cell n).state = .inWork)) :
    Keeps g d g (d.freeCells cells) := by
  refine .storeOnly fun law => law.store (law.ok.release _) (law.zero.release _) rfl rfl fun n state => ?_
  show ((d.store.release cells).cell n).state = _
  rw [CellStore.cell_release, if_neg fun mem => away n mem state]

/-- FREE cells are granted (R17). -/
theorem Keeps.take {g : Ghost} (d : Device) (pool : Pool) {st : CellState} (other : st ≠ .free) {n : Nat}
    (room : d.store.hasRoom pool n = true) :
    Keeps g d g { d with store := d.store.take pool st (d.store.lowestFree n) } := by
  refine .storeOnly fun law => law.store (law.ok.grant pool st other n room) (law.zero.take pool other _) rfl rfl
    fun k state => ?_
  show ((d.store.take pool st (d.store.lowestFree n)).cell k).state = _
  rw [CellStore.cell_take, if_neg fun mem => ?_]
  rw [(d.store.free_of_mem_lowestFree n k mem).2] at state
  exact state.elim (fun h => (nomatch h)) fun h => (nomatch h)

end Sys2Proof.Machine
end

/-! PROOF. Frames that enter work, that join a queue, and that are sent (R15, R19, R56, R96..R102, R109, R118). -/
section

namespace Sys2Proof.Machine

-- One theorem at a time, so that the threads of the whole text stay within its memory.
set_option Elab.async false

/-! ### A frame enters work -/

/-- A frame leaves its queue and enters work, bound to a key (R56, R82, R102). -/
theorem Keeps.enter {g : Ghost} {a b : Device} {w : InWork} (none_ : g.ended = none) (idle : a.engine.inWork = none)
    (busy : b.engine.inWork = some w) (waiting : a.engine.waiting.Perm (w.frame :: b.engine.waiting))
    (from_ : a.engine.control = w.frame :: b.engine.control
      ∨ b.engine.control = a.engine.control ∧ w.frame ∈ a.engine.settle ++ a.engine.bulk)
    (rest : ∀ f ∈ b.engine.settle ++ b.engine.bulk, f ∈ a.engine.settle ++ a.engine.bulk)
    (store : b.store = a.store.pass .inWork w.frame.cells) (keys : KeysLaw a → KeysLaw b)
    (places : SamePlaces a b := by exact {})
    (notices : b.traffic.notices.length ≤ a.traffic.notices.length := by exact Nat.le_refl _)
    (life : SameLife a b := by exact {}) : Keeps g a g b := by
  have held : (g.held b).Perm (g.held a) := by
    unfold Ghost.held
    rw [Ghost.inWork_of_none none_, Ghost.inWork_of_none none_, idle, busy]
    refine List.Perm.append_left _ ?_
    rw [Option.map_some, Option.toList_some, Option.map_none, Option.toList_none, List.append_nil]
    exact (List.perm_append_singleton _ _).trans waiting.symm
  refine ⟨fun law => law.enter none_ idle waiting busy store, fun law => law.change (fun p => Nat.le_of_eq ?_)
    (fun p => ?_) (fun t _ h => (places.tags t).trans h) fun f is => .inl (held.mem_iff.mp is), fun law => ?_,
    .congr life, fun law => ⟨keys law.keys, fun v is => nomatch none_.symm.trans is⟩⟩
  · unfold Ghost.owed
    rw [held.countP_eq, places.owedElse, places.reserved]
  · rw [places.reserved]
    exact Nat.add_le_add_right (places.responses p) _
  · obtain ⟨room, bulk, announced⟩ := law
    have mem : w.frame ∈ a.engine.waiting := waiting.mem_iff.mpr (List.mem_cons_self ..)
    have count : b.generatedReserved = a.generatedReserved := by
      unfold Device.generatedReserved
      rw [idle, busy]
      obtain control | ⟨control, is⟩ := from_
      · rw [control, List.countP_cons]
        rfl
      · simp only [control, (bulk _ is).2]
        rfl
    refine ⟨?_, fun f is => bulk f (rest f is), fun f is => announced f ?_⟩
    · rw [count]
      exact Nat.le_trans (Nat.add_le_add_right notices _) room
    · exact (show (Ghost.idle.held b).Perm (Ghost.idle.held a) by
        unfold Ghost.held
        rw [Ghost.inWork_of_none rfl, Ghost.inWork_of_none rfl, idle, busy]
        exact (List.perm_append_singleton _ _).trans (waiting.symm.trans (.of_eq (List.append_nil _).symm))).mem_iff.mp is

/-! ### A frame joins a queue -/

/-- A frame joins a queue; where its response is owed, a place has been reserved for it. -/
theorem Keeps.join {g : Ghost} {a b : Device} {f : Frame} {s : Port → Nat}
    (spare : ∀ p, bit (f.owes p) + s p ≤ g.spare p) (waiting : b.engine.waiting.Perm (f :: a.engine.waiting))
    (inWork : b.engine.inWork = a.engine.inWork) (frames : FramesLaw g a → FramesLaw g b)
    (notices : a.NoticesKept → b.NoticesKept) (inbound : ∀ c, f.flow = .inbound c → f.party = .trafficPort)
    (places : SamePlaces a b := by exact {}) (life : SameLife a b := by exact {})
    (keys : SameKeys a b := by exact {}) : Keeps g a { g with spare := s } b := by
  have held : (({ g with spare := s } : Ghost).held b).Perm (f :: g.held a) := by
    unfold Ghost.held Ghost.inWork
    simp only [inWork]
    exact ((waiting.append_right _).append_left _).trans List.perm_middle
  refine ⟨fun law => (frames law).ghost, fun law => law.change (fun p => ?_) (fun p => ?_)
    (fun t _ h => (places.tags t).trans h) fun f' is => ?_, notices, fun law => (law.congr life).ghost,
    fun law => (law.congr inWork keys).ghost⟩
  · have := spare p
    have bit_eq : bit (f.owes p) = if f.owes p = true then 1 else 0 := rfl
    unfold Ghost.owed
    rw [held.countP_eq, List.countP_cons, places.owedElse, places.reserved]
    show _ + _ + s p + _ ≤ _
    omega
  · rw [places.reserved]
    exact Nat.add_le_add_right (places.responses p) _
  · obtain rfl | old := List.mem_cons.mp (held.mem_iff.mp is)
    · exact .inr inbound
    · exact .inl old

/-- The places of GENERATED notices where a frame has joined CONTROL. -/
theorem NoticesKept.joinControl {a b : Device} {f : Frame} (law : a.NoticesKept)
    (control : b.engine.control = a.engine.control ++ [f]) (settle : b.engine.settle = a.engine.settle)
    (bulk : b.engine.bulk = a.engine.bulk) (inWork : b.engine.inWork = a.engine.inWork)
    (room : f.reserved = true → a.generatedRoom = true) (told : f.party ≠ .trafficPort → f.reserved = true)
    (notices : b.traffic.notices.length ≤ a.traffic.notices.length) : b.NoticesKept := by
  obtain ⟨places, rest, announced⟩ := law
  have count : b.generatedReserved = a.generatedReserved + bit f.reserved := by
    have bit_eq : bit f.reserved = if f.reserved = true then 1 else 0 := rfl
    unfold Device.generatedReserved
    rw [control, inWork, List.countP_append, List.countP_singleton]
    omega
  refine ⟨?_, by rw [settle, bulk]; exact rest, fun f' is other => ?_⟩
  · rw [count]
    cases reserved : f.reserved with
    | false =>
      show _ + (_ + 0) ≤ _
      omega
    | true =>
      have : a.traffic.notices.length + a.generatedReserved < 64 := of_decide_eq_true (room reserved)
      show _ + (_ + 1) ≤ _
      omega
  · unfold Engine.held Engine.waiting at is announced
    rw [control, settle, bulk, inWork] at is
    simp only [List.append_assoc, List.mem_append, List.mem_singleton] at is announced
    obtain old | rfl | old := is
    · exact announced f' (.inl old) other
    · exact .inl (told other)
    · exact announced f' (.inr old) other

/-- The places of GENERATED notices where a frame of the traffic port has joined SETTLE or BULK. -/
theorem NoticesKept.joinOther {a b : Device} {f : Frame} (law : a.NoticesKept)
    (control : b.engine.control = a.engine.control)
    (queues : (b.engine.settle = a.engine.settle ++ [f] ∧ b.engine.bulk = a.engine.bulk)
      ∨ (b.engine.settle = a.engine.settle ∧ b.engine.bulk = a.engine.bulk ++ [f]))
    (inWork : b.engine.inWork = a.engine.inWork) (own : f.party = .trafficPort ∧ f.reserved = false)
    (notices : b.traffic.notices.length ≤ a.traffic.notices.length) : b.NoticesKept := by
  obtain ⟨places, rest, announced⟩ := law
  have mem : ∀ f', f' ∈ b.engine.settle ++ b.engine.bulk ↔ f' = f ∨ f' ∈ a.engine.settle ++ a.engine.bulk := by
    intro f'
    obtain ⟨settle, bulk⟩ | ⟨settle, bulk⟩ := queues
    · rw [settle, bulk]
      simp only [List.mem_append, List.mem_singleton]
      exact or_assoc.trans or_left_comm
    · rw [settle, bulk]
      simp only [List.mem_append, List.mem_singleton]
      exact (or_congr_right or_comm).trans or_left_comm
  refine ⟨?_, fun f' is => ?_, fun f' is other => ?_⟩
  · unfold Device.generatedReserved at places ⊢
    rw [control, inWork]
    exact Nat.le_trans (Nat.add_le_add_right notices _) places
  · obtain rfl | old := (mem f').mp is
    · exact own
    · exact rest f' old
  · unfold Engine.held Engine.waiting at is announced
    rw [List.append_assoc b.engine.control, control, inWork] at is
    rw [List.append_assoc a.engine.control] at announced
    rw [List.mem_append, List.mem_append, mem] at is
    obtain (old | rfl | old) | old := is
    · exact announced f' (List.mem_append_left _ (List.mem_append_left _ old)) other
    · exact absurd own.1 other
    · exact announced f' (List.mem_append_left _ (List.mem_append_right _ old)) other
    · exact announced f' (List.mem_append_right _ old) other

theorem Engine.waiting_setQueue (e : Engine) (k : Queue) (f : Frame) :
    (e.setQueue k (e.queue k ++ [f])).waiting.Perm (f :: e.waiting) := by
  unfold Engine.waiting
  cases k with
  | control =>
    show ((e.control ++ [f]) ++ e.settle ++ e.bulk).Perm _
    simp only [List.append_assoc]
    exact List.perm_middle
  | settle =>
    show (e.control ++ (e.settle ++ [f]) ++ e.bulk).Perm _
    simp only [← List.append_assoc]
    rw [List.append_assoc _ [f]]
    exact List.perm_middle
  | bulk =>
    show (e.control ++ e.settle ++ (e.bulk ++ [f])).Perm _
    rw [← List.append_assoc]
    exact List.perm_append_singleton _ _

theorem Engine.inWork_setQueue (e : Engine) (k : Queue) (fs : List Frame) : (e.setQueue k fs).inWork = e.inWork := by
  cases k <;> rfl

/-- A frame that the part builds (R19). -/
theorem Keeps.queuePart {g : Ghost} (d : Device) {party : Party} (t : Nat) (kind : FrameKind) (payload : List Byte)
    (proof : Option (BitVec 32 × Nat)) (own : party = .conditionMonitor ∨ party = .proofEngine)
    (granted : d.partGrant (cellsFor (payload.length + 32)) = .granted) :
    Keeps g d g (d.queuePart party t kind payload proof) := by
  obtain ⟨room, place⟩ : d.store.hasRoom .reserved (cellsFor (payload.length + 32)) = true ∧ d.generatedRoom = true := by
    unfold Device.partGrant at granted
    split at granted
    · split at granted
      next h both => exact ⟨h, (Bool.and_eq_true_iff.mp both).2⟩
      next => exact nomatch granted
    · exact nomatch granted
  generalize cells_is : d.store.lowestFree (cellsFor (payload.length + 32)) = cells
  have free : ∀ n ∈ cells, (d.store.cell n).state = .free := fun n mem =>
    (d.store.free_of_mem_lowestFree _ n (cells_is ▸ mem)).2
  have distinct : cells.Nodup := cells_is ▸ d.store.nodup_lowestFree _
  have after : ∀ n, (((d.store.take .reserved .queued cells).lay cells payload).cell n).state
      = if n ∈ cells then .queued else (d.store.cell n).state := by
    intro n
    have same := congrArg (SMap.get Cell.free · n) ((d.store.take .reserved .queued cells).cells_lay cells payload)
    refine (congrArg Cell.state (same.trans (d.store.cell_take .reserved .queued cells n))).trans ?_
    split <;> rfl
  let f : Frame := ⟨party, 0, t, .outbound kind, cells, payload, d.clock, true, false, false, proof⟩
  have built : d.queuePart party t kind payload proof = ({ d with
      store := (d.store.take .reserved .queued cells).lay cells payload
      engine := { d.engine with control := d.engine.control ++ [f] } } : Device).modTunnel t
        fun x => { x with frameCount := x.frameCount + 1 } := by
    unfold Device.queuePart
    rw [cells_is]
  rw [built]
  have tunnel := Device.eachTunnel ({ d with
      store := (d.store.take .reserved .queued cells).lay cells payload
      engine := { d.engine with control := d.engine.control ++ [f] } } : Device) t
        (fun x => { x with frameCount := x.frameCount + 1 }) (P := Tunnel.Alike) (fun _ => {}) {}
  refine Keeps.join (s := g.spare) (f := f) (fun p => ?_) ?_ rfl (fun law => ?_)
    (fun law => NoticesKept.joinControl law (f := f) rfl rfl rfl rfl (fun _ => place) (fun _ => rfl) (Nat.le_refl _))
    (fun c flow => nomatch flow) { tags := fun u => (tunnel u).tag } { tunnel := fun u => (tunnel u).life }
    { tunnel := fun u => (tunnel u).keys }
  · have none_ : f.owes p = false := by
      obtain rfl | rfl := own <;> cases p <;> rfl
    rw [none_]
    exact Nat.le_of_eq (Nat.zero_add _)
  · exact d.engine.waiting_setQueue .control f
  · have length : cells.length = cellsFor (payload.length + 32) :=
      cells_is ▸ law.ok.length_lowestFree (p := .reserved) (of_decide_eq_true room)
    unfold cellsFor at length
    have ok : (d.store.take .reserved .queued cells).Ok :=
      cells_is ▸ law.ok.grant .reserved .queued (by decide) _ room
    refine law.join (f := f) (ok.lay _ _) ?_ ?_ rfl (fun n mem => ?_) (fun n mem => (after n).trans (if_pos mem))
      (fun n away => (after n).trans (if_neg away)) distinct ?_
    · refine (law.zero.take .reserved (by decide) cells).lay distinct (by omega) fun n mem => ?_
      rw [CellStore.cell_take, if_pos mem]
      exact CellState.noConfusion
    · exact d.engine.waiting_setQueue .control f
    · rw [free n mem]
      exact fun h => h.elim (fun h => (nomatch h)) fun h => (nomatch h)
    · show payload.length + 32 ≤ cells.length * 256
      omega

theorem Keeps.entryTest {g : Ghost} (d : Device) : Keeps g d g d.entryTest := by
  unfold Device.entryTest
  refine .ite (fun _ => ?_) fun _ => .refl g d
  split
  · exact .aside
  · exact .aside
  · exact .refl g d
  · exact .refl g d

theorem Frame.owes_submitted {f : Frame} {p q : Port} (h : f.submittedBy p = true) (owes : f.owes q = true) : q = p := by
  unfold Frame.owes Frame.submittedBy at *
  cases p <;> cases q <;> simp_all

/-- A frame of a master placed in a queue (R97, R98, R99). -/
theorem Keeps.submit {g : Ghost} (d : Device) (k : Queue) (f : Frame) {p : Port} {o : Owner}
    (party : f.submittedBy p = true)
    (claimed : ∀ n ∈ f.cells, (d.store.cell n).state = .claimed o) (distinct : f.cells.Nodup) (fits : f.Fits)
    (inbound : ∀ c, f.flow = .inbound c → f.party = .trafficPort)
    (announced : f.party = .trafficPort ∧ f.reserved = false
      ∨ k = .control ∧ f.reserved = true ∧ d.generatedRoom = true) :
    Keeps (g.plus p 1) d g (d.submit k f) := by
  let e : Device := {
    (d.passCells f.cells .queued).modTunnel f.tunnel fun x => { x with frameCount := x.frameCount + 1 } with
    engine := d.engine.setQueue k (d.engine.queue k ++ [f]) }
  have placed : Keeps (g.plus p 1) d g e := by
    have tunnel : ∀ u, (d.tunnel u).Alike (e.tunnel u) := Device.eachTunnel (d.passCells f.cells .queued) f.tunnel
      (fun x => { x with frameCount := x.frameCount + 1 }) (P := Tunnel.Alike) (fun _ => {}) {}
    have after : ∀ n, (e.store.cell n).state =
        if n ∈ f.cells ∧ (d.store.cell n).state ≠ .free then .queued else (d.store.cell n).state := by
      intro n
      show ((d.store.pass .queued f.cells).cell n).state = _
      rw [CellStore.cell_pass _ _ (by decide)]
      split <;> rfl
    refine Keeps.join (g := g.plus p 1) (s := g.spare) (f := f) (fun q => ?_) (d.engine.waiting_setQueue k f)
      (d.engine.inWork_setQueue k _) (fun law => ?_) (fun law => ?_) inbound
      { reserved := fun q => by cases q <;> rfl
        responses := fun q => by cases q <;> exact Nat.le_refl _
        tags := fun u => (tunnel u).tag } { tunnel := fun u => (tunnel u).life }
      { inWork := congrArg (Option.map fun w => (w.frame.tunnel, w.entry)) (d.engine.inWork_setQueue k _)
        tunnel := fun u => (tunnel u).keys }
    · show bit (f.owes q) + g.spare q ≤ if q = p then g.spare q + 1 else g.spare q
      cases owes : f.owes q with
      | false =>
        have : bit false = 0 := rfl
        split <;> omega
      | true =>
        rw [if_pos (Frame.owes_submitted party owes)]
        exact Nat.le_of_eq (Nat.add_comm _ _)
    · refine law.join (f := f) (law.ok.pass _ _ (by decide)) (law.zero.pass (by decide) _) (d.engine.waiting_setQueue k f)
        (d.engine.inWork_setQueue k _) (fun n mem => ?_) (fun n mem => ?_) (fun n away => ?_) distinct fits
      · rw [claimed n mem]
        exact fun h => h.elim (fun h => (nomatch h)) fun h => (nomatch h)
      · rw [after, if_pos ⟨mem, by rw [claimed n mem]; exact CellState.noConfusion⟩]
      · rw [after, if_neg fun h => away h.1]
    · obtain ⟨own, unreserved⟩ | ⟨rfl, reserved, room⟩ := announced
      · cases k with
        | control =>
          exact NoticesKept.joinControl law (f := f) rfl rfl rfl rfl (fun h => nomatch unreserved.symm.trans h)
            (fun h => absurd own h) (Nat.le_refl _)
        | settle => exact NoticesKept.joinOther law (f := f) rfl (.inl ⟨rfl, rfl⟩) rfl ⟨own, unreserved⟩ (Nat.le_refl _)
        | bulk => exact NoticesKept.joinOther law (f := f) rfl (.inr ⟨rfl, rfl⟩) rfl ⟨own, unreserved⟩ (Nat.le_refl _)
      · exact NoticesKept.joinControl law (f := f) rfl rfl rfl rfl (fun _ => room) (fun _ => reserved) (Nat.le_refl _)
  exact placed.trans (.ite (fun _ => .entryTest e) fun _ => .refl g e)

/-! ### A frame is sent -/

/-- The outbound frame in work leaves the engine as a wire frame in its cells, its key released (R6, R56, R109). -/
def Device.sentFrame (d : Device) (w : InWork) (h : Header) : Device :=
  ({ d.layWire w.frame h w.entry with engine := { d.engine with inWork := none } } : Device).releaseKey w.frame.tunnel
    w.entry

theorem Keeps.sentFrame {d : Device} {w : InWork} (work : d.engine.inWork = some w) (h : Header) {kind : FrameKind}
    (flow : w.frame.flow = .outbound kind) :
    Keeps .idle d { Ghost.idle with hand := [w.frame] } (d.sentFrame w h) := by
  have laid : Keeps { Ghost.idle with hand := [w.frame], ended := some w } d
      { Ghost.idle with hand := [w.frame], ended := some w } (d.layWire w.frame h w.entry) := by
    refine .layHand d (f := w.frame) (List.mem_singleton_self _) _ fun fits => ?_
    unfold Frame.Fits at fits
    rw [flow] at fits
    rw [length_wireFrame]
    exact fits
  exact (Keeps.detach rfl work).trans (laid.trans (.leave (g := { Ghost.idle with hand := [w.frame] }) _ w))

/-- A sent control frame is handed to the traffic port in the place reserved for it, or its place was lost (R100). -/
theorem Keeps.handOver {d : Device} {w : InWork} (work : d.engine.inWork = some w) (h : Header) {kind : FrameKind}
    (flow : w.frame.flow = .outbound kind) (other : w.frame.party ≠ .trafficPort) (kind' : FrameKind) (epoch seq : Nat)
    (by_ : Producer) :
    Keeps .idle d (Ghost.idle.gains w.frame) ((d.sentFrame w h).handOver w.frame kind' epoch seq by_) := by
  have sent := Keeps.sentFrame work h flow
  unfold Device.handOver
  split
  · exact sent.trans (.endedFree (g := .idle) _)
  next kept =>
    have passed : Keeps .idle d (Ghost.idle.gains w.frame) ((d.sentFrame w h).passCells w.frame.cells (.done .traffic)) :=
      sent.trans (.endedPass (g := .idle) _ .traffic)
    have edit : KeyEdit _ (d.sentFrame w h) := KeyEdit.releaseKey _ w.frame.tunnel w.entry
    refine ⟨fun law => (passed.frames law).congr {}, fun law => (passed.places law).congr {}
      { reserved := fun p => by cases p <;> rfl, responses := fun p => by cases p <;> exact Nat.le_refl _ },
      fun law => ?_, fun law => (passed.retry law).congr {}, ?_⟩
    case refine_2 =>
      exact fun law =>
        BoundLaw.congr (a := (d.sentFrame w h).passCells w.frame.cells (.done .traffic)) rfl {} (passed.keys law)
    obtain ⟨places, rest, announced⟩ := law
    have notices : (d.sentFrame w h).traffic.notices = d.traffic.notices := edit.stands (·.traffic.notices)
    have engine : (d.sentFrame w h).engine = { d.engine with inWork := none } := edit.stands (·.engine)
    have reserved : w.frame.reserved = true := by
      refine (announced w.frame ?_ other).resolve_right kept
      exact Ghost.mem_held_inWork (g := .idle) work
    refine ⟨?_, fun f is => rest f ?_, fun f is => announced f ?_⟩
    · unfold Device.generatedReserved at places ⊢
      show ((d.sentFrame w h).traffic.notices ++ [_]).length + ((d.sentFrame w h).engine.control.countP _
        + match (d.sentFrame w h).engine.inWork with
          | some w => bit w.frame.reserved
          | none => 0) ≤ 64
      rw [notices, engine, List.length_append]
      rw [work] at places
      simp only [reserved, List.length_singleton] at places ⊢
      have one : bit true = 1 := rfl
      omega
    · have is : f ∈ (d.sentFrame w h).engine.settle ++ (d.sentFrame w h).engine.bulk := is
      rw [engine] at is
      exact is
    · have is : f ∈ (d.sentFrame w h).engine.held := is
      rw [engine] at is
      exact List.mem_append_left _ ((List.append_nil d.engine.waiting) ▸ is)

end Sys2Proof.Machine
end

/-! PROOF. Every invariant over the operations of faults, proofs, keys and the condition monitor (R119..R151, R49..R93). -/
section

namespace Sys2Proof.Machine

-- One theorem at a time, so that the threads of the whole text stay within its memory.
set_option Elab.async false

/-! ### Records on which no invariant has changed -/

theorem Tunnel.Alike.modKey {x : Tunnel} {s : Slot} {f : KeyRecord → KeyRecord}
    (core : ∀ k, x.key? s = some k → (f k).core = k.core) : x.Alike (x.modKey s f) where
  keys := by
    refine ⟨x.inDerivation_modKey s f, fun r => ?_, ?_⟩
    · rw [Tunnel.key?_modKey]
      split
      next here =>
        rw [here]
        cases is : x.key? s with
        | none => rfl
        | some k => exact congrArg some (core k is)
      next => rfl
    · cases s with
      | next =>
        show (x.next.map _).map _ = _
        rw [Option.map_map]
        rfl
      | current => rfl
      | previous => rfl
  life := by cases s <;> exact {}
  tag := by cases s <;> rfl

theorem Tunnel.Alike.setCurrent {x : Tunnel} {c c' : CurrentKey} (is : x.current = some c)
    (core : c'.key.core = c.key.core) :
    x.Alike { x with current := some c' } where
  keys := by
    refine ⟨rfl, fun r => ?_, rfl⟩
    cases r with
    | next => rfl
    | current =>
      show some c'.key.core = (x.current.map (·.key)).map KeyRecord.core
      rw [is, core]
      rfl
    | previous => rfl

namespace Keeps

variable {g : Ghost} (d : Device)

/-! ### Named updates -/

theorem modCondition (t : Nat) (f : Condition → Condition) : Keeps g d g (d.modCondition t f) := modTunnel d t _ {}
theorem setLatch (t : Nat) (k : TunnelFault) (l : Option Latch) : Keeps g d g (d.setLatch t k l) := modTunnel d t _ {}
theorem give (e : EventSource) (c : Option Nat) : Keeps g d g (d.give e c) := .aside
theorem judgeEdges : Keeps g d g d.judgeEdges := .aside
theorem setFaults (f : DeviceLatches) : Keeps g d g { d with faults := f } := .aside
theorem setBank (b : Bank) : Keeps g d g { d with bank := b } := .aside
theorem setDue (b : Bool) : Keeps g d g { d with buildDue := b } := .aside
theorem setProfiles (ps : List Profile) : Keeps g d g { d with profiles := ps } := .aside

theorem modKey (t : Nat) (s : Slot) (f : KeyRecord → KeyRecord)
    (core : ∀ k, (d.tunnel t).key? s = some k → (f k).core = k.core) : Keeps g d g (d.modTunnel t (·.modKey s f)) :=
  modTunnel d t _ (.modKey core)

theorem pushNotice {p : Port} (other : p ≠ .traffic) (n : Notice) : Keeps g d g (d.pushNotice p n) :=
  modPort d p _ rfl (Nat.le_refl _) (.inr other)

/-! ### Faults -/

theorem offerDevice (k : DeviceFault) : Keeps g d g (d.offerDevice k) := by
  unfold Device.offerDevice
  split
  · exact ite (fun _ => (setFaults d _).trans (pushNotice _ (by decide) _)) fun _ => refl g d
  · exact refl g d

theorem offerTunnel (t : Nat) (k : TunnelFault) : Keeps g d g (d.offerTunnel t k) := by
  unfold Device.offerTunnel
  split
  · exact ite (fun _ => (setLatch d _ _ _).trans (pushNotice _ (by decide) _)) fun _ => refl g d
  · exact refl g d

theorem offer (r : FaultRef) : Keeps g d g (d.offer r) := by
  cases r with
  | device k => exact offerDevice d k
  | tunnel t k => exact offerTunnel d t k

theorem deviceFault (k : DeviceFault) (n : Nat) : Keeps g d g (d.deviceFault k n) := by
  unfold Device.deviceFault
  split
  · exact setFaults d _
  · exact ((setFaults d _).trans (offerDevice _ _)).trans (give _ _ _)

theorem latchTunnel (t : Nat) (k : TunnelFault) (n : Nat) (b : Bool) : Keeps g d g (d.latchTunnel t k n b) := by
  unfold Device.latchTunnel
  split
  · exact setLatch _ _ _ _
  · exact ((setLatch _ _ _ _).trans (offerTunnel _ _ _)).trans (give _ _ _)

theorem faultScan (n : Nat) : Keeps g d g (d.faultScan n) := foldl _ (fun d r => offer d r) _ _

theorem freezeOnOverflow : Keeps g d g d.freezeOnOverflow := by
  unfold Device.freezeOnOverflow
  exact ite (fun _ => (setBank d _).trans (deviceFault _ _ _)) fun _ => refl g d

theorem closeEvent : Keeps g d g d.closeEvent := (judgeEdges d).trans (freezeOnOverflow _)

/-! ### Proofs -/

/-- The proof unit changed, the retry queue, the running proof's tunnel and its purpose as they stood. -/
theorem setProofs (u : ProofUnit) (retry : u.retry = d.proofs.retry)
    (running : u.running.map ProofRecord.core = d.proofs.running.map ProofRecord.core) :
    Keeps g d g { d with proofs := u } :=
  .aside (life := ⟨retry, running, fun _ => {}⟩)

theorem setProof {r r' : ProofRecord} (running : d.proofs.running = some r) (core : r'.core = r.core := by rfl) :
    Keeps g d g (d.setProof (some r')) :=
  setProofs d _ rfl (by rw [running, Option.map_some, Option.map_some, core])

theorem buildAttempt : Keeps g d g d.buildAttempt := by
  unfold Device.buildAttempt
  simp only
  split
  next r running =>
    have running : d.proofs.running = some r := running
    refine ite (fun _ => ?_) fun _ => setDue d false
    split
    next granted =>
      rw [← Change.cellsFor_proofPayload _ (nextSerial d.proofs.serial)] at granted
      refine trans ?_ (queuePart _ _ _ _ _ (.inr rfl) granted)
      refine (setDue d false).trans (setProofs _ _ rfl ?_)
      show some (ProofRecord.core _) = d.proofs.running.map ProofRecord.core
      rw [running]
      rfl
    · exact (setDue d false).trans (deviceFault _ _ _)
    · exact setDue d false
  · exact setDue d false

/-- The part of a start that is left once the record runs (R143). -/
theorem started (t : Nat) : Keeps g d g (d.modTunnel t fun x => { x with underProof := true }).buildAttempt :=
  (modTunnel d t (fun x => { x with underProof := true }) {}).trans (buildAttempt _)

/-- An OPERATIONS proof starts, with none running (R143). -/
theorem startProof (idle : d.proofs.running = none) (t : Nat) (mode : ProofMode) (rounds : Nat) :
    Keeps g d g (d.startProof t .operations mode rounds) := by
  unfold Device.startProof
  simp only
  refine trans ?_ (started _ t)
  exact .lifeOnly fun law => law.startOther rfl idle rfl rfl fun _ => rfl

theorem retryStartTest : Keeps g d g d.retryStartTest := by
  unfold Device.retryStartTest
  split
  next t rest idle waits =>
    refine ite (fun _ => ?_) fun _ => refl g d
    unfold Device.startProof
    simp only
    refine trans ?_ (started _ t)
    exact .lifeOnly fun law => law.start waits idle rfl rfl fun _ => rfl
  · exact refl g d

theorem proofFault (r : ProofRecord) (x : ProofResult) (c : Option AbortCause) : Keeps g d g (d.proofFault r x c) := by
  unfold Device.proofFault
  split
  · exact ite (fun _ => latchTunnel d _ _ _ _) fun _ => refl g d
  · exact ite (fun _ => latchTunnel d _ _ _ _) fun _ => refl g d

end Keeps

/-- An OPERATIONS proof has left the proof unit (R149). -/
theorem Keeps.endOther {g : Ghost} (d : Device) {r : ProofRecord} (running : d.proofs.running = some r)
    (purpose : r.purpose = .operations) (last : Option LastResult) :
    Keeps g d g { d with proofs := { d.proofs with running := none, last := last } } :=
  .lifeOnly fun law => law.endRun running rfl rfl (fun _ _ => rfl) (fun _ => {})
    fun h => nomatch purpose.symm.trans h

/-- A RETRY proof has left the proof unit, and its tunnel is as the result makes it (R149, R150). -/
theorem Keeps.endRetry {g : Ghost} (d : Device) {r : ProofRecord} (running : d.proofs.running = some r)
    (purpose : r.purpose = .retry) (last : Option LastResult) (f : Tunnel → Tunnel) (keys : ∀ x : Tunnel, x.SameKeys (f x))
    (tag : ∀ x : Tunnel, (f x).closeTag = x.closeTag)
    (ends : (d.tunnel r.tunnel).state = .isolated → (d.tunnel r.tunnel).holdDeadline = none →
      ((f (d.tunnel r.tunnel)).state = .isolated ∧ (f (d.tunnel r.tunnel)).holdDeadline.isSome = true
        ∨ ((f (d.tunnel r.tunnel)).state = .inService ∨ (f (d.tunnel r.tunnel)).state = .failed)
          ∧ (f (d.tunnel r.tunnel)).holdDeadline = none)) :
    Keeps g d g (({ d with proofs := { d.proofs with running := none, last := last } } : Device).modTunnel r.tunnel f) := by
  let e : Device := { d with proofs := { d.proofs with running := none, last := last } }
  have record : (e.modTunnel r.tunnel f).tunnel r.tunnel = f (d.tunnel r.tunnel) :=
    (Device.tunnel_modTunnel ..).trans (if_pos rfl)
  refine .lifeOnly (fun law => law.endRun running rfl rfl (fun u away => ?_) (fun h => nomatch purpose.symm.trans h)
      fun _ => ?_)
    (places := { tags := e.eachTunnel r.tunnel f (P := fun x y => y.closeTag = x.closeTag) (fun _ => rfl) (tag _) })
    (keys := { tunnel := e.eachTunnel r.tunnel f (P := Tunnel.SameKeys) (fun _ => {}) (keys _) })
  · exact (Device.tunnel_modTunnel ..).trans (if_neg away)
  · obtain ⟨isolated, none_, -⟩ := law.running r running purpose
    rw [record]
    exact ends isolated none_

namespace Keeps

variable {g : Ghost} (d : Device)

/-- The running proof ends: a RETRY proof with a result that its tunnel shows (R149, R150). -/
theorem endProof (result : ProofResult) (cause : Option AbortCause)
    (shows : ∀ r, d.proofs.running = some r → r.purpose = .retry → result = .passed ∨ countsAsFailed result cause = true) :
    Keeps g d g (d.endProof result cause) := by
  unfold Device.endProof
  split
  · exact refl g d
  next r running =>
    simp only
    refine ((trans ?_ (pushNotice _ (by decide) _)).trans (proofFault _ _ _ _)).trans (retryStartTest _)
    have idle : Keeps g d g (d.modTunnel r.tunnel fun x => { x with underProof := false }) := modTunnel d _ _ {}
    refine idle.trans ?_
    generalize last_is : some (LastResult.mk ..) = last
    generalize e_is : (d.modTunnel r.tunnel fun x => { x with underProof := false }) = e
    have same : ∀ p, (({ d with proofs := p } : Device).modTunnel r.tunnel fun x => { x with underProof := false })
        = { e with proofs := p } := fun p => e_is ▸ rfl
    have running : e.proofs.running = some r := e_is ▸ running
    have proofs : d.proofs = e.proofs := e_is ▸ rfl
    rw [same, proofs]
    cases purpose : r.purpose with
    | operations => exact endOther e running purpose last
    | retry =>
      rw [if_pos rfl]
      unfold Device.retryResult
      by_cases passed : result = .passed
      · rw [if_pos passed]
        exact endRetry e running purpose last _ (fun _ => {}) (fun _ => rfl) fun _ none_ => .inr ⟨.inl rfl, none_⟩
      · rw [if_neg passed, if_pos ((shows r (proofs ▸ running) purpose).resolve_left passed)]
        refine endRetry e running purpose last _ (fun x => ?_) (fun x => ?_) fun isolated none_ => ?_
        · split <;> exact {}
        · split <;> rfl
        · split
          · exact .inl ⟨isolated, rfl⟩
          · exact .inr ⟨.inr rfl, rfl⟩

end Keeps

end Sys2Proof.Machine
end

/-! PROOF. Every invariant over the advance of proofs, tunnel faults, key notices, follows, ages and the condition monitor
(R49, R80, R83..R92, R119..R129, R145..R151). -/
section

namespace Sys2Proof.Machine

-- One theorem at a time, so that the threads of the whole text stay within its memory.
set_option Elab.async false

theorem KeyRecord.told_core (k : KeyRecord) (f : KeyFlag) : (k.told f).core = k.core := by cases f <;> rfl

theorem KeyRecord.judge_core {k m : KeyRecord} {s : Nat} (h : k.judge s = some m) : m.core = k.core := by
  unfold KeyRecord.judge at h
  split at h
  · exact Option.some.inj h ▸ rfl
  · split at h
    · exact Option.some.inj h ▸ rfl
    · exact nomatch h

theorem CurrentKey.reexamine_core (c : CurrentKey) (p : Profile) (age : Option Nat) :
    (c.reexamine p age).key.core = c.key.core := rfl

/-- What the latching of a fault leaves of a tunnel's state. -/
theorem Device.state_latchTunnel (d : Device) (t : Nat) (k : TunnelFault) (n : Nat) (b : Bool) :
    ((d.latchTunnel t k n b).tunnel t).state = (d.tunnel t).state := by
  have latched : ∀ (e : Device) l, ((e.setLatch t k l).tunnel t).state = (e.tunnel t).state := by
    intro e l
    exact e.eachTunnel t _ (P := fun x y => y.state = x.state) (fun _ => rfl) rfl t
  unfold Device.latchTunnel
  split
  · exact latched d _
  · rw [Device.tunnel_give]
    unfold Device.offerTunnel
    split
    · split
      · exact (latched (d.setLatch t k _) _).trans (latched d _)
      · exact latched d _
    · exact latched d _

namespace Keeps

variable {g : Ghost} (d : Device)

/-! ### Proofs -/

theorem abortProof (t : Nat) (c : AbortCause) (f : Purpose → Bool)
    (shows : f .retry = true → countsAsFailed .aborted (some c) = true) : Keeps g d g (d.abortProof t c f) := by
  unfold Device.abortProof
  split
  next r running =>
    refine ite (fun reached => endProof d _ _ fun r' running' purpose => .inr (shows ?_)) fun _ => refl g d
    obtain rfl : r = r' := Option.some.inj (running.symm.trans running')
    exact purpose ▸ reached.2
  · exact refl g d

theorem proofReport (s : BitVec 32) (o : Result) : Keeps g d g (d.proofReport s o) := by
  unfold Device.proofReport
  split
  next r running =>
    refine ite (fun _ => ?_) fun _ => refl g d
    split
    · exact trans (b := { d with draws := if r.sent < Config.max32 then d.draws else d.draws + 1 }) .aside
        (setProof _ running)
    · exact endProof d _ _ fun _ _ _ => .inr rfl
    · exact endProof d _ _ fun _ _ _ => .inr rfl
    · exact refl g d
  · exact refl g d

theorem waitFor {r r' : ProofRecord} (running : d.proofs.running = some r) (e : Nat) (core : r'.core = r.core := by rfl) :
    Keeps g d g (d.waitFor r' e) := by
  unfold Device.waitFor
  refine trans ?_ (buildAttempt _)
  exact setProof d running core

theorem advanceProof : Keeps g d g d.advanceProof := by
  unfold Device.advanceProof
  split
  · exact refl g d
  next r running =>
    split
    · exact waitFor d running _
    · refine ite (fun _ => (setProof d running).trans (endProof _ _ _ fun _ _ _ => ?_)) fun _ =>
        waitFor d running _
      split
      · exact .inl rfl
      · exact .inr rfl

theorem proofMiss {r : ProofRecord} (running : d.proofs.running = some r) (s : BitVec 32) (k : MissKind)
    (e : Option (List Byte)) : Keeps g d g (d.proofMiss r s k e) := by
  have counted : Keeps g d g ((d.setProof (some { r with misses := r.misses.modify r.entry (bump Config.max16) })).give
      .proofMisses (some r.tunnel)) := (setProof d running).trans (give _ _ _)
  unfold Device.proofMiss
  simp only
  split
  · refine trans (counted.trans ?_) (endProof _ _ _ fun _ _ _ => .inr rfl)
    exact setProofs _ _ rfl rfl
  · exact counted.trans (advanceProof _)

theorem strayEcho (t : Nat) : Keeps g d g (d.strayEcho t) := by
  unfold Device.strayEcho
  refine trans ?_ (give _ _ _)
  split
  next r running => exact ite (fun _ => setProof d running) fun _ => refl g d
  · exact refl g d

theorem handEcho (t k : Nat) (bs : List Byte) : Keeps g d g (d.handEcho t k bs) := by
  unfold Device.handEcho
  split
  next r s awaited =>
    have running : d.proofs.running = some r := by
      unfold Device.awaited at awaited
      split at awaited
      next r' running =>
        split at awaited
        · split at awaited
          · exact running.trans (congrArg some (congrArg Prod.fst (Option.some.inj awaited)))
          · exact nomatch awaited
        · exact nomatch awaited
        · exact nomatch awaited
      · exact nomatch awaited
    exact ite (fun _ => advanceProof d) fun _ => proofMiss d running _ _ _
  · exact strayEcho d _

theorem isolate {t : Nat} (service : (d.tunnel t).state = .inService) : Keeps g d g (d.isolate t) := by
  unfold Device.isolate
  refine trans ?_ (abortProof _ _ _ _ fun h => (nomatch h))
  generalize d.after (seconds (d.profileOf t).holdTime) = at_
  have keys := d.eachTunnel t (fun x => { x with state := .isolated, holdDeadline := some at_ }) (P := Tunnel.SameKeys)
    (fun _ => {}) {}
  have tags := d.eachTunnel t (fun x => { x with state := .isolated, holdDeadline := some at_ })
    (P := fun x y => y.closeTag = x.closeTag) (fun _ => rfl) rfl
  exact .lifeOnly (fun law => law.isolate service at_) (places := { tags := tags }) (keys := { tunnel := keys })

theorem tunnelFault (t : Nat) (k : TunnelFault) (n : Nat) : Keeps g d g (d.tunnelFault t k n) := by
  unfold Device.tunnelFault
  refine ite (fun isolates => (latchTunnel d _ _ _ _).trans (isolate _ ?_)) fun _ => latchTunnel d _ _ _ _
  rw [Device.state_latchTunnel]
  exact of_decide_eq_true (Bool.and_eq_true_iff.mp isolates).2

/-! ### Keys -/

theorem offerFlag (x : Nat × Slot × KeyFlag) : Keeps g d g (d.offerFlag x) := by
  unfold Device.offerFlag
  split
  · split
    · exact ite (fun _ => (modKey d _ _ _ fun k _ => k.told_core _).trans (pushNotice _ (by decide) _)) fun _ => refl g d
    · exact refl g d
  · exact refl g d

theorem offerFlags : Keeps g d g d.offerFlags := foldl _ (fun d x => offerFlag d x) _ _

theorem keyFlagScan (n : Nat) : Keeps g d g (d.keyFlagScan n) := foldl _ (fun d x => offerFlag d x) _ _

theorem addKeyCause (t : Nat) (c : KeyCause) : Keeps g d g (d.addKeyCause t c) := by
  unfold Device.addKeyCause
  have added : Keeps g d g (d.modTunnel t fun x => { x with outCauses := x.outCauses.add c }) := modTunnel d t _ {}
  exact ite (fun _ => added.trans (abortProof _ _ _ _ fun _ => rfl)) fun _ => added

theorem followTest (t e : Nat) : Keeps g d g (d.followTest t e) := by
  unfold Device.followTest
  simp only
  split
  next n next =>
    refine ite (fun h => ?_) fun _ => refl g d
    exact ((promote d t next h.1).trans (modKey _ _ _ _ (by exact fun _ _ => rfl))).trans (give _ _ _)
  · exact refl g d

theorem softAge (t : Nat) : Keeps g d g (d.softAge t) := modKey d _ _ _ fun _ _ => rfl

theorem setCurrent {t : Nat} {c c' : CurrentKey} (is : (d.tunnel t).current = some c)
    (core : c'.key.core = c.key.core := by rfl) :
    Keeps g d g (d.modTunnel t fun x => { x with current := some c' }) :=
  modTunnel d t _ (.setCurrent is core)

theorem hardAge (t : Nat) : Keeps g d g (d.hardAge t) := by
  unfold Device.hardAge
  split
  · exact refl g d
  next c is => exact ((setCurrent d is).trans (addKeyCause _ _ _)).trans (tunnelFault _ _ _ _)

theorem reexamineTunnel (t : Nat) : Keeps g d g (d.reexamineTunnel t) := by
  unfold Device.reexamineTunnel
  split
  · exact refl g d
  next c is =>
    simp only
    have examined := setCurrent (g := g) d is (c.reexamine_core (d.profileOf t) (d.ageOf c.key))
    revert examined
    generalize (d.modTunnel t fun x => { x with current := some (c.reexamine (d.profileOf t) (d.ageOf c.key)) }) = e
    intro examined
    have causes : ∀ x y : Bool, Keeps g d g
        (if y = true then (if x = true then e.addKeyCause t .expired else e).addKeyCause t .spent
          else (if x = true then e.addKeyCause t .expired else e)) := by
      intro x y
      have first : Keeps g d g (if x = true then e.addKeyCause t .expired else e) :=
        ite (fun _ => examined.trans (addKeyCause _ _ _)) fun _ => examined
      exact ite (fun _ => first.trans (addKeyCause _ _ _)) fun _ => first
    exact ite (fun _ => (causes _ _).trans (tunnelFault _ _ _ _)) fun _ => causes _ _

theorem reexamine (n : Nat) : Keeps g d g (d.reexamine n) :=
  foldl _ (fun d t => ite (fun _ => reexamineTunnel d t) fun _ => refl g d) _ _

/-! ### The condition monitor -/

theorem countOutcome (t : Nat) (k : Counted) : Keeps g d g (d.countOutcome t k) := modCondition _ _ _
theorem authenticated (t : Nat) : Keeps g d g (d.authenticated t) := modCondition _ _ _
theorem outboundSent (t : Nat) : Keeps g d g (d.outboundSent t) := modCondition _ _ _
theorem keepaliveSent (t : Nat) : Keeps g d g (d.keepaliveSent t) := (modCondition _ _ _).trans (give _ _ _)
theorem keepaliveEnded (t : Nat) : Keeps g d g (d.keepaliveEnded t) := modCondition _ _ _
theorem skipKeepalive (t : Nat) : Keeps g d g (d.skipKeepalive t) := (modCondition _ _ _).trans (give _ _ _)

theorem intervalEnds (t : Nat) : Keeps g d g (d.intervalEnds t) := by
  have storm (a : Device) (c : Prop) [Decidable c] (k : TunnelFault) (n : Nat) (h : Keeps g d g a) :
      Keeps g d g (if c then a.tunnelFault t k n else a) :=
    ite (fun _ => h.trans (tunnelFault a t k n)) fun _ => h
  unfold Device.intervalEnds
  simp only
  exact (storm _ _ _ _ (storm _ _ _ _ (storm _ _ _ _ (modCondition _ _ _)))).trans (modTunnel _ t _ {})

theorem silenceEnds (t : Nat) : Keeps g d g (d.silenceEnds t) := (tunnelFault d _ _ _).trans (modCondition _ _ _)

theorem keepaliveEnds (t : Nat) : Keeps g d g (d.keepaliveEnds t) := by
  unfold Device.keepaliveEnds
  simp only
  split
  · split
    next granted =>
      exact ((modCondition d _ _).trans (queuePart _ t .keepalive [] none (.inl rfl) granted)).trans (modCondition _ _ _)
    · exact ((modCondition d _ _).trans (deviceFault _ _ _)).trans (skipKeepalive _ _)
    · exact (modCondition d _ _).trans (skipKeepalive _ _)
  · exact modCondition d _ _

end Keeps

end Sys2Proof.Machine
end

/-! PROOF. Every invariant over the ends of frames, the removals of a close and the end of a closing (R27, R41,
R110..R118). -/
section

namespace Sys2Proof.Machine

-- One theorem at a time, so that the threads of the whole text stay within its memory.
set_option Elab.async false

/-- A step after which the law of places tells what it needs: under its negation the places do not matter. -/
theorem Keeps.placesTell {g h : Ghost} {a b : Device} {c : Prop} (tells : PlacesLaw g a → c) (m : c → Keeps g a h b)
    (p : Port) (n : Nat) (other : Keeps (g.plus p n) a h b) : Keeps g a h b := by
  by_cases is : c
  · exact m is
  · exact ⟨fun law => other.frames law.ghost, fun law => absurd (tells law) is, other.notices,
      fun law => other.retry law.ghost, fun law => other.keys law.ghost⟩

namespace Keeps

variable {g : Ghost} (d : Device)

/-! ### Frames that fail -/

theorem uncount (t : Nat) : Keeps g d g (d.uncount t) := modTunnel d t _ {}

theorem placeFreed (f : Frame) : Keeps g d g (d.placeFreed f) := setDue d _

/-- A frame ends without a response. -/
theorem endedQuiet {f : Frame} {rest : List Frame} :
    Keeps { g with hand := f :: rest } d { g with hand := rest } (d.freeCells f.cells) :=
  (endedFree d).trans (waiveGain _ f)

/-- A frame ends and its response is queued in its place. -/
theorem answerFrame {f : Frame} {p : Port} (owes : f.owes p = true) (tag : BitVec 16) (code : Nat) (st : Status)
    (o : Result) (body : Body) : Keeps (g.gains f) d g (d.answerDeferred p tag code st o body) := by
  rw [Ghost.gains_of_owes owes]
  exact answerDeferred d p tag code st o body

theorem failOutbound {f : Frame} {rest : List Frame} (o : Result) :
    Keeps { g with hand := f :: rest } d { g with hand := rest } (d.failOutbound f o) := by
  have counted : Keeps { g with hand := f :: rest } d { g with hand := f :: rest } ((d.uncount f.tunnel).placeFreed f) :=
    (uncount d _).trans (placeFreed _ _)
  unfold Device.failOutbound
  simp only
  split
  next party =>
    refine ite (fun _ => counted.trans (endedQuiet _)) fun kept => ?_
    refine (counted.trans (endedPass _ .traffic)).trans (answerFrame _ ?_ _ _ _ _ _)
    simp [Frame.owes, Frame.submittedBy, party, kept]
  next party =>
    refine ite (fun _ => counted.trans (endedQuiet _)) fun kept => ?_
    refine (counted.trans (endedPass _ .key)).trans (answerFrame _ ?_ _ _ _ _ _)
    simp [Frame.owes, Frame.submittedBy, party, kept]
  · exact (counted.trans (endedQuiet _)).trans (keepaliveEnded _ _)
  · split
    · exact (counted.trans (endedQuiet _)).trans (proofReport _ _ _)
    · exact counted.trans (endedQuiet _)

theorem answerInbound (f : Frame) (o : Result) (body : Body) :
    Keeps (g.plus .traffic 1) d g (d.answerInbound f o body) := by
  unfold Device.answerInbound
  exact ite (fun _ => waivePlus d _ _) fun _ => answerDeferred d _ _ _ _ _ _

/-- An inbound frame ends and is answered. -/
theorem answerEnded {f : Frame} {rest : List Frame} {a e : Device} {c : Byte} (flow : f.flow = .inbound c)
    (ended : ∀ k : Ghost, Keeps { k with hand := f :: rest } a ({ k with hand := rest }.gains f) e) (o : Result)
    (body : Body) : Keeps { g with hand := f :: rest } a { g with hand := rest } (e.answerInbound f o body) := by
  refine placesTell (c := f.party = .trafficPort) (fun law => ?_) (fun party => ?_) .traffic 1 ?_
  · exact law.inbound f (Ghost.mem_held_hand (List.mem_cons_self ..)) c flow
  · refine (ended g).trans ?_
    cases orphan : f.orphan with
    | true =>
      unfold Device.answerInbound
      rw [orphan, if_pos rfl]
      exact waiveGain _ f
    | false =>
      have owes : f.owes .traffic = true := by simp [Frame.owes, Frame.submittedBy, party, orphan]
      rw [Ghost.gains_of_owes owes]
      exact answerInbound e f o body
  · exact ((ended (g.plus .traffic 1)).trans (waiveGain _ f)).trans
      (answerInbound (g := { g with hand := rest }) e f o body)

theorem reportInbound (t : Nat) (o : Result) : Keeps g d g (d.reportInbound t o) := by
  have counted : Keeps g d g (match (inboundReport o).1 with
      | some k => d.countOutcome t k
      | none => d) := by
    split
    · exact countOutcome _ _ _
    · exact refl g d
  unfold Device.reportInbound
  simp only
  split
  · exact counted.trans (give _ _ _)
  · exact counted

theorem failInbound {f : Frame} {rest : List Frame} {c : Byte} (flow : f.flow = .inbound c) (o : Result) (body : Body) :
    Keeps { g with hand := f :: rest } d { g with hand := rest } (d.failInbound f o body) :=
  (answerEnded flow (fun _ => (uncount d _).trans (endedFree _)) o body).trans (reportInbound _ _ _)

/-! ### Removal at close -/

theorem closeFrame {f : Frame} {rest : List Frame} :
    Keeps { g with hand := f :: rest } d { g with hand := rest } (d.closeFrame f) := by
  unfold Device.closeFrame
  split
  · exact failOutbound d _
  next c flow => exact failInbound d flow _ _

theorem closeFrames (fs : List Frame) : ∀ d : Device,
    Keeps { g with hand := fs ++ g.hand } d g (fs.foldl Device.closeFrame d) := by
  induction fs with
  | nil => exact fun d => refl g d
  | cons f fs ih => exact fun d => (closeFrame d).trans (ih _)

theorem removeFrames (t : Nat) : Keeps g d g (d.removeFrames t) := by
  rw [Device.removeFrames_eq]
  refine trans ?_ (closeFrames _ _)
  refine pick d _ _ ?_ List.filter_sublist List.filter_sublist List.filter_sublist rfl
  have split_ : ∀ fs : List Frame, fs.Perm (fs.filter (fun f => decide (f.tunnel = t))
      ++ fs.filter fun f => !decide (f.tunnel = t)) := fun fs => (List.filter_append_perm _ fs).symm
  unfold Engine.waiting
  refine (((split_ d.engine.control).append (split_ d.engine.settle)).append (split_ d.engine.bulk)).trans ?_
  refine List.perm_iff_count.mpr fun f => ?_
  simp only [List.count_append]
  omega

end Keeps

/-! ### The end of a closing -/

/-- A count over the tunnels in which one has changed. -/
theorem countP_range_change {p q : Nat → Bool} {n t : Nat} (small : t < n) (others : ∀ u, u ≠ t → q u = p u) :
    (List.range n).countP q + bit (p t) = (List.range n).countP p + bit (q t) := by
  induction n with
  | zero => exact nomatch small
  | succ n ih =>
    simp only [List.range_succ, List.countP_append, List.countP_singleton]
    have one : ∀ b : Bool, bit b = if b = true then 1 else 0 := fun _ => rfl
    by_cases here : t = n
    · subst here
      have same : (List.range t).countP q = (List.range t).countP p :=
        List.countP_congr fun u is => by rw [others u (Nat.ne_of_lt (List.mem_range.mp is))]
      have := one (p t)
      have := one (q t)
      omega
    · have := ih (by omega)
      rw [others n fun h => here h.symm]
      omega

/-- The keys of a tunnel that no frame in work binds and no job fills all go. -/
theorem KeysLaw.dropKey_slot {d : Device} (law : KeysLaw d) {t : Nat} (s : Slot) (free : ∀ e, ¬ d.Binds t e)
    (still : s = .next → ∀ n, (d.tunnel t).next = some n → n.ready = true) : KeysLaw (d.dropKey t s) := by
  unfold Device.dropKey
  split
  next k is => exact law.dropKey is (Bool.eq_false_iff.mpr fun bound => free _ ((law.bound t s k is).mp bound)) still
  · exact law

theorem Device.binds_of_edit {a b : Device} (h : KeyEdit a b) (t e : Nat) : b.Binds t e ↔ a.Binds t e := by
  unfold Device.Binds
  rw [h.frames.inWork]

theorem KeysLaw.dropKeys {d : Device} (law : KeysLaw d) {t : Nat} (free : ∀ e, ¬ d.Binds t e)
    (idle : (d.tunnel t).inDerivation ≠ true) : KeysLaw (d.dropKeys t) := by
  have still : ∀ n, (d.tunnel t).next = some n → n.ready = true := by
    intro n next
    refine Classical.byContradiction fun deriving_ => ?_
    exact idle ((law.flight t).mpr ⟨n, next, Bool.eq_false_iff.mpr deriving_⟩)
  have first := KeyEdit.dropKey d t .next
  have second := first.trans (KeyEdit.dropKey _ t .current)
  exact ((law.dropKey_slot .next free fun _ => still).dropKey_slot .current
    (fun e h => free e ((Device.binds_of_edit first t e).mp h)) fun h => (nomatch h)).dropKey_slot .previous
      (fun e h => free e ((Device.binds_of_edit second t e).mp h)) fun h => (nomatch h)

theorem KeyEdit.dropKeys (d : Device) (t : Nat) : KeyEdit d (d.dropKeys t) :=
  ((KeyEdit.dropKey d t .next).trans (KeyEdit.dropKey _ t .current)).trans (KeyEdit.dropKey _ t .previous)

namespace Keeps

variable {g : Ghost} (d : Device)

/-- A closing tunnel becomes EMPTY; its response is owed no longer (R41, R174). -/
theorem emptyTunnel {t : Nat} {f : Tunnel → Tunnel} (closing : (d.tunnel t).state = .closing) (open_ : g.closing ≠ some t)
    (empty : (f (d.tunnel t)).state = .empty) (hold : (f (d.tunnel t)).holdDeadline = (d.tunnel t).holdDeadline)
    (tag : (f (d.tunnel t)).closeTag = none) (keys : (d.tunnel t).SameKeys (f (d.tunnel t))) :
    Keeps g d (g.plus .operations (bit (d.tunnel t).closeTag.isSome)) (d.modTunnel t f) := by
  have tags : ∀ u, u ≠ t → ((d.modTunnel t f).tunnel u).closeTag = (d.tunnel u).closeTag := by
    intro u away
    rw [Device.tunnel_modTunnel, if_neg away]
  have gone : ((d.modTunnel t f).tunnel t).closeTag = none := by
    rw [Device.tunnel_modTunnel, if_pos rfl]
    exact tag
  refine ⟨fun law => (law.congr (b := d.modTunnel t f) {}).ghost, fun law => law.change (fun p => ?_)
    (fun _ => Nat.le_refl _) (fun u _ none_ => ?_) fun f' is => .inl is,
    fun law => NoticesKept.congr {} (Nat.le_refl _) law,
    fun law => (law.turn (by rw [closing]; exact TunnelState.noConfusion) (by rw [empty]; exact TunnelState.noConfusion)
      hold (.inr empty) open_).ghost,
    fun law => (BoundLaw.congr (a := d) (b := d.modTunnel t f) rfl
      { tunnel := d.eachTunnel t f (P := Tunnel.SameKeys) (fun _ => {}) keys } law).ghost⟩
  · unfold Ghost.owed
    have held : (g.plus .operations (bit (d.tunnel t).closeTag.isSome)).held (d.modTunnel t f) = g.held d := rfl
    have port : (d.modTunnel t f).port p = d.port p := rfl
    rw [held, port]
    cases p with
    | traffic => exact Nat.le_refl _
    | key => exact Nat.le_refl _
    | operations =>
      show _ + (_ + bit _) + (g.spare .operations + bit (d.tunnel t).closeTag.isSome) + _ ≤ _ + (_ + bit _) + _ + _
      by_cases small : t < 480
      · have count := countP_range_change (p := fun u => (d.tunnel u).closeTag.isSome)
          (q := fun u => ((d.modTunnel t f).tunnel u).closeTag.isSome) small fun u away => by rw [tags u away]
        rw [gone] at count
        have none_ : bit (none : Option (BitVec 16)).isSome = 0 := rfl
        have saving : (d.modTunnel t f).saving = d.saving := rfl
        rw [saving]
        omega
      · have count : (List.range 480).countP (fun u => ((d.modTunnel t f).tunnel u).closeTag.isSome)
            = (List.range 480).countP fun u => (d.tunnel u).closeTag.isSome :=
          List.countP_congr fun u is => by
            rw [tags u fun h => small (h ▸ List.mem_range.mp is)]
        have none_ : bit (d.tunnel t).closeTag.isSome = 0 := by
          rw [law.tags t (Nat.not_lt.mp small)]
          rfl
        rw [count, none_]
        exact Nat.le_refl _
  · by_cases here : u = t
    · exact here ▸ gone
    · exact (tags u here).trans none_

/-- The end of a closing that nothing holds (R41). -/
theorem endClosing (open_ : g.closing = none) (t : Nat) : Keeps g d g (d.endClosing t) := by
  by_cases waits : (d.tunnel t).inDerivation = true ∨ ∃ w, d.engine.inWork = some w ∧ w.frame.tunnel = t
  · rw [Device.endClosing_waits waits]
    exact refl g d
  · by_cases closing : (d.tunnel t).state = .closing
    · rw [Device.endClosing_ends closing waits]
      obtain ⟨-, inWork, counts, -⟩ := d.removeFrames_spec t
      have state : ((d.removeFrames t).tunnel t).state = .closing := (congrArg Tunnel.state (counts t)).trans closing
      have tag : ((d.removeFrames t).tunnel t).closeTag = (d.tunnel t).closeTag := (congrArg Tunnel.closeTag (counts t) :)
      have idle : ((d.removeFrames t).tunnel t).inDerivation ≠ true := fun h =>
        waits (.inl ((congrArg Tunnel.inDerivation (counts t)).symm.trans h))
      have free : ∀ e, ¬ (d.removeFrames t).Binds t e := fun e ⟨w, work, tunnel, _⟩ =>
        waits (.inr ⟨w, inWork.symm.trans work, tunnel⟩)
      have removed := removeFrames (g := g) d t
      generalize d.removeFrames t = r at state tag idle free removed
      have dropped : Keeps g r g (r.dropKeys t) := .keyEdit (.dropKeys r t) (·.dropKeys free idle)
      obtain ⟨-, -, record, -⟩ := r.dropKeys_spec t
      generalize r.dropKeys t = e at dropped record
      have emptied := emptyTunnel (g := g) e (t := t) (f := fun x =>
        { x with
          state := .empty, shop := none, profile := none, outCauses := ⟨false, false, false⟩, inOps := false
          retryCount := 0, closeTag := none })
        (by rw [record]; exact state) (by rw [open_]; exact fun h => (nomatch h)) rfl rfl rfl {}
      have same : (e.tunnel t).closeTag = (d.tunnel t).closeTag := by
        rw [record]
        exact tag
      rw [same] at emptied
      refine ((removed.trans dropped).trans emptied).trans ?_
      cases (d.tunnel t).closeTag with
      | none => exact waivePlus _ _ _
      | some tag => exact answerDeferred _ _ _ _ _ _ _
    · unfold Device.endClosing
      rw [if_neg fun h => closing h.1]
      exact refl g d

end Keeps

end Sys2Proof.Machine
end

/-! PROOF. Every invariant over the takes of the engine and the settling of an event (R35, R76, R82, R91, R102..R105, R108,
R111, R144, R164). -/
section

namespace Sys2Proof.Machine

-- One theorem at a time, so that the threads of the whole text stay within its memory.
set_option Elab.async false

/-! ### What the checks at take find -/

/-- The outbound checks pass on a tunnel with a CURRENT key (R108). -/
theorem Device.outboundCheck_none {d : Device} {t : Nat} {kind : FrameKind} (h : d.outboundCheck t kind = none) :
    ∃ c, (d.tunnel t).current = some c := by
  unfold Device.outboundCheck at h
  simp only at h
  split at h
  · exact nomatch h
  · split at h
    · exact nomatch h
    · split at h
      next active =>
        cases is : (d.tunnel t).current with
        | none =>
          rw [is] at active
          exact nomatch active
        | some c => exact ⟨c, rfl⟩
      next => exact nomatch h

/-- The epoch lookup selects a slot that a key holds, and that no job fills (R76). -/
theorem Tunnel.lookup_ok {x : Tunnel} {epoch : Nat} {s : Slot} (h : x.lookup epoch = .ok s) :
    (∃ k, x.key? s = some k) ∧ (s = .next → ∀ n, x.next = some n → n.ready = true) := by
  unfold Tunnel.lookup at h
  split at h
  next found =>
    split at h
    · exact nomatch h
    · cases h
      cases is : x.current with
      | none =>
        rw [is] at found
        exact nomatch found
      | some c => exact ⟨⟨c.key, by rw [Tunnel.key?, is, Option.map_some]⟩, fun h => (nomatch h)⟩
  · split at h
    next found =>
      cases h
      cases is : x.previous with
      | none =>
        rw [is] at found
        exact nomatch found
      | some k => exact ⟨⟨k, is⟩, fun h => (nomatch h)⟩
    · split at h
      next found =>
        cases h
        cases is : x.next with
        | none =>
          rw [is] at found
          exact nomatch found
        | some n =>
          rw [is, Option.any_some, Bool.and_eq_true, Bool.and_eq_true] at found
          refine ⟨⟨n.key, by rw [Tunnel.key?, is, Option.map_some]⟩, fun _ m same => ?_⟩
          obtain rfl := Option.some.inj same
          exact found.1.2
      · exact nomatch h

theorem Device.inboundCheck_ok {d : Device} {f : Frame} {s : Slot} (h : d.inboundCheck f = .ok s) :
    (d.tunnel f.tunnel).lookup f.header.epoch = .ok s := by
  unfold Device.inboundCheck at h
  simp only at h
  split at h
  · exact nomatch h
  · split at h
    · exact nomatch h
    · split at h
      · exact nomatch h
      · split at h
        · exact nomatch h
        · split at h
          next r found =>
            cases h
            exact found
          · exact nomatch h

/-! ### The queues as a take leaves them -/

/-- A head taken from its queue: what is left, and where the frame was. -/
structure Engine.Taken (a b : Engine) (f : Frame) : Prop where
  inWork : b.inWork = a.inWork
  waiting : a.waiting.Perm (f :: b.waiting)
  from_ : a.control = f :: b.control ∨ b.control = a.control ∧ f ∈ a.settle ++ a.bulk
  control : b.control.Sublist a.control
  settle : b.settle.Sublist a.settle
  bulk : b.bulk.Sublist a.bulk

theorem Engine.taken_setQueue {e : Engine} {k : Queue} {f : Frame} {rest : List Frame} (is : e.queue k = f :: rest) :
    e.Taken (e.setQueue k rest) f := by
  cases k with
  | control =>
    have control : e.control = f :: rest := is
    refine ⟨rfl, ?_, .inl control, control ▸ List.sublist_cons_self _ _, .refl _, .refl _⟩
    unfold Engine.waiting
    rw [control]
    exact .refl _
  | settle =>
    have settle : e.settle = f :: rest := is
    refine ⟨rfl, ?_, .inr ⟨rfl, ?_⟩, .refl _, settle ▸ List.sublist_cons_self _ _, .refl _⟩
    · unfold Engine.waiting
      rw [settle]
      exact (List.perm_middle (l₁ := e.control)).append_right _
    · rw [settle]
      exact List.mem_append_left _ (List.mem_cons_self ..)
  | bulk =>
    have bulk : e.bulk = f :: rest := is
    refine ⟨rfl, ?_, .inr ⟨rfl, ?_⟩, .refl _, .refl _, bulk ▸ List.sublist_cons_self _ _⟩
    · unfold Engine.waiting
      rw [bulk]
      exact List.perm_middle
    · rw [bulk]
      exact List.mem_append_right _ (List.mem_cons_self ..)

theorem Engine.Taken.afterTake {a b : Engine} {f : Frame} (h : a.Taken b f) (k : Queue) : a.Taken (b.afterTake k) f := by
  obtain ⟨m, t, same⟩ := b.afterTake_only k
  rw [same]
  exact ⟨h.inWork, h.waiting, h.from_, h.control, h.settle, h.bulk⟩

theorem Engine.Taken.rest {a b : Engine} {f : Frame} (h : a.Taken b f) :
    ∀ f' ∈ b.settle ++ b.bulk, f' ∈ a.settle ++ a.bulk := fun _ is => (h.settle.append h.bulk).mem is

theorem Tunnel.entryOf_of_key {x : Tunnel} {s : Slot} {k : KeyRecord} (is : x.key? s = some k) : x.entryOf s = k.entry := by
  unfold Tunnel.entryOf
  rw [is]
  rfl

theorem CurrentKey.bind_key (c : CurrentKey) (p : Profile) :
    (c.bind p).key.entry = c.key.entry ∧ (c.bind p).key.bound = true := by
  unfold CurrentKey.bind
  simp only
  split <;> split <;> exact ⟨rfl, rfl⟩

namespace Keeps

/-- An outbound frame enters work, bound to the CURRENT key (R82, R108). -/
theorem enterOutbound {d : Device} {e : Engine} {due : Bool} {q : Queue} {f : Frame} (idle : d.engine.inWork = none)
    (taken : d.engine.Taken e f) {c : CurrentKey} (current : (d.tunnel f.tunnel).current = some c) (sequence : Nat) :
    Keeps .idle d .idle (({ ({ d with engine := e, buildDue := due } : Device).passCells f.cells .inWork with
      engine := { e with inWork := some ⟨f, q, (d.tunnel f.tunnel).entryOf .current, sequence⟩ } } : Device).bindOutbound
        f.tunnel) := by
  let w : InWork := ⟨f, q, (d.tunnel f.tunnel).entryOf .current, sequence⟩
  let a : Device := { ({ d with engine := e, buildDue := due } : Device).passCells f.cells .inWork with
    engine := { e with inWork := some w } }
  have is : d.Holds f.tunnel .current c.key := Device.holds_current current
  generalize b_is : c.bind (a.profileOf f.tunnel) = b
  obtain ⟨entry, bound⟩ := c.bind_key (a.profileOf f.tunnel)
  rw [b_is] at entry bound
  have record : (a.modTunnel f.tunnel fun x => { x with current := some b }).tunnel f.tunnel
      = { d.tunnel f.tunnel with current := some b } := (Device.tunnel_modTunnel ..).trans (if_pos rfl)
  have tags := a.eachTunnel f.tunnel (fun x => { x with current := some b }) (P := fun x y => y.closeTag = x.closeTag)
    (fun _ => rfl) rfl
  have life := a.eachTunnel f.tunnel (fun x => { x with current := some b }) (P := Tunnel.SameLife) (fun _ => {}) {}
  have entered : Keeps .idle d .idle (a.modTunnel f.tunnel fun x => { x with current := some b }) := by
    refine enter (w := w) rfl idle rfl taken.waiting taken.from_ taken.rest rfl (fun law => ?_)
      (places := { tags := tags }) (life := { tunnel := life })
    refine law.bind (w := w) (s := .current) (m := b.key) idle rfl is (Tunnel.entryOf_of_key is) rfl (fun u away => ?_)
      (fun r => ?_) entry bound (fun n _ => ?_) ?_
    · exact (Device.tunnel_modTunnel ..).trans (if_neg away)
    · rw [record]
      cases r <;> rfl
    · rw [record]
    · rw [record]
  have bind : a.bindOutbound f.tunnel = if b.state = .spent
      then (a.modTunnel f.tunnel fun x => { x with current := some b }).addKeyCause f.tunnel .spent
      else a.modTunnel f.tunnel fun x => { x with current := some b } := by
    have current : (a.tunnel f.tunnel).current = some c := current
    unfold Device.bindOutbound
    rw [current]
    simp only [b_is]
  show Keeps .idle d .idle (a.bindOutbound f.tunnel)
  rw [bind]
  exact ite (fun _ => entered.trans (addKeyCause _ _ _)) fun _ => entered

/-- An inbound frame enters work, bound to the key that its epoch selects (R76, R111). -/
theorem enterInbound {d : Device} {e : Engine} {due : Bool} {q : Queue} {f : Frame} (idle : d.engine.inWork = none)
    (taken : d.engine.Taken e f) {s : Slot} {k : KeyRecord} (is : (d.tunnel f.tunnel).key? s = some k)
    (still : s = .next → ∀ n, (d.tunnel f.tunnel).next = some n → n.ready = true) :
    Keeps .idle d .idle (({ ({ d with engine := e, buildDue := due } : Device).passCells f.cells .inWork with
      engine := { e with inWork := some ⟨f, q, (d.tunnel f.tunnel).entryOf s, 0⟩ } } : Device).modTunnel f.tunnel
        (·.modKey s fun k => { k with bound := true })) := by
  let w : InWork := ⟨f, q, (d.tunnel f.tunnel).entryOf s, 0⟩
  let a : Device := { ({ d with engine := e, buildDue := due } : Device).passCells f.cells .inWork with
    engine := { e with inWork := some w } }
  have record : (a.modTunnel f.tunnel (·.modKey s fun k => { k with bound := true })).tunnel f.tunnel
      = (d.tunnel f.tunnel).modKey s fun k => { k with bound := true } := (Device.tunnel_modTunnel ..).trans (if_pos rfl)
  have edit := KeyEdit.modKey a f.tunnel s fun k => { k with bound := true }
  refine enter (w := w) rfl idle rfl taken.waiting taken.from_ taken.rest rfl (fun law => ?_)
    (places := { tags := edit.tag }) (life := { tunnel := edit.life })
  refine law.bind (w := w) (s := s) (m := { k with bound := true }) idle rfl is (Tunnel.entryOf_of_key is) rfl
    (fun u away => ?_) (fun r => ?_) rfl rfl (fun n deriving_ => ?_) ?_
  · exact (Device.tunnel_modTunnel ..).trans (if_neg away)
  · rw [record, Tunnel.key?_modKey]
    split
    next here =>
      rw [here, is]
      rfl
    next => rfl
  · rw [record]
    exact Tunnel.next_modKey still _ n deriving_
  · rw [record]
    exact Tunnel.inDerivation_modKey _ _ _

/-- The frame taken from the head of a queue enters work, or ends with the outcome of the check it fails (R102). -/
theorem judgeFrame (d : Device) (e : Engine) (due : Bool) (q : Queue) (f : Frame) (idle : d.engine.inWork = none)
    (taken : d.engine.Taken e f) :
    Keeps .idle d .idle (({ d with engine := e, buildDue := due } : Device).judgeFrame q f) := by
  have picked : Keeps .idle d { Ghost.idle with hand := [f] } { d with engine := e, buildDue := due } :=
    pick (gone := [f]) d e due taken.waiting taken.control taken.settle taken.bulk taken.inWork
  unfold Device.judgeFrame
  simp only
  split
  next kind flow =>
    split
    · exact picked.trans (failOutbound _ _)
    next pass =>
      obtain ⟨c, current⟩ := Device.outboundCheck_none pass
      have current : (d.tunnel f.tunnel).current = some c := current
      exact enterOutbound idle taken current _
  next c flow =>
    split
    · exact picked.trans (failInbound _ flow _ _)
    next s pass =>
      obtain ⟨⟨k, is⟩, still⟩ := Tunnel.lookup_ok (Device.inboundCheck_ok pass)
      exact enterInbound idle taken is still

theorem rescueTest {g : Ghost} (d : Device) : Keeps g d g d.rescueTest := by
  unfold Device.rescueTest
  split
  · exact ite (fun _ => .aside) fun _ => refl g d
  · exact refl g d

theorem takeOne (d : Device) (idle : d.engine.inWork = none) : Keeps .idle d .idle d.takeOne := by
  unfold Device.takeOne
  split
  next f rest control =>
    exact judgeFrame d _ true .control f idle (Engine.taken_setQueue (k := .control) control)
  · have tested := rescueTest (g := .idle) d
    have still : d.rescueTest.engine.inWork = none := by
      obtain ⟨m, b, same⟩ := d.rescueTest_only
      rw [same]
      exact idle
    simp only
    split
    next f rest is => exact tested.trans (judgeFrame _ _ _ _ f still ((Engine.taken_setQueue is).afterTake _))
    · exact tested

theorem settleFor (n : Nat) : ∀ d : Device, Keeps .idle d .idle (Machine.settleFor n d) := by
  induction n with
  | zero => exact refl .idle
  | succ n ih =>
    intro d
    unfold Machine.settleFor
    exact ite (fun _ => (buildAttempt d).trans (ih _)) fun _ =>
      ite (fun h => (takeOne d h.1).trans (ih _)) fun _ => setDue d false

theorem settle (d : Device) : Keeps .idle d .idle d.settle := settleFor _ d

theorem finish (d : Device) : Keeps .idle d .idle d.finish := ((settle d).trans (offerFlags _)).trans (closeEvent _)

end Keeps

end Sys2Proof.Machine
end

/-! PROOF. Every invariant over the completions of frames and of derivation jobs, and an installation (R59, R61..R63,
R109..R115). -/
section

namespace Sys2Proof.Machine

-- One theorem at a time, so that the threads of the whole text stay within its memory.
set_option Elab.async false

namespace Keeps

/-! ### Outbound completions -/

/-- The announcement of a SENT completion (R109, R118). -/
theorem announceSent {d : Device} {w : InWork} (work : d.engine.inWork = some w) (h : Header) {kind : FrameKind}
    (flow : w.frame.flow = .outbound kind) (epoch sequence : Nat) :
    Keeps .idle d .idle ((d.sentFrame w h).announceSent w.frame kind epoch sequence) := by
  have sent := sentFrame work h flow
  unfold Device.announceSent
  split
  next party =>
    refine ite (fun _ => sent.trans (endedQuiet (g := .idle) _)) fun kept => ?_
    refine (sent.trans (endedPass (g := .idle) _ .traffic)).trans (answerFrame _ ?_ _ _ _ _ _)
    simp [Frame.owes, Frame.submittedBy, party, kept]
  next party =>
    refine ite (fun _ => (sent.trans (endedQuiet (g := .idle) _)).trans (placeFreed _ _)) fun kept => ?_
    have other : w.frame.party ≠ .trafficPort := by rw [party]; exact Party.noConfusion
    refine (handOver work h flow other _ _ _ _).trans (answerFrame _ ?_ _ _ _ _ _)
    simp [Frame.owes, Frame.submittedBy, party, kept]
  next party =>
    have other : w.frame.party ≠ .trafficPort := by rw [party]; exact Party.noConfusion
    exact ((handOver work h flow other _ _ _ _).trans (waiveGain _ _)).trans (keepaliveSent _ _)
  next party =>
    have other : w.frame.party ≠ .trafficPort := by rw [party]; exact Party.noConfusion
    have handed := (handOver work h flow other kind epoch sequence .part).trans (waiveGain _ _)
    simp only
    split
    · exact handed.trans (proofReport _ _ _)
    · exact handed

theorem completeOutbound {d : Device} {w : InWork} (work : d.engine.inWork = some w) {kind : FrameKind}
    (flow : w.frame.flow = .outbound kind) : Keeps .idle d .idle (d.completeOutbound w kind) := by
  unfold Device.completeOutbound
  exact ((((announceSent work _ flow _ _).trans (outboundSent _ _)).trans (give _ _ _)).trans (uncount _ _)).trans
    (endClosing _ rfl _)

theorem outboundEnds (d : Device) : Keeps .idle d .idle d.outboundEnds := by
  unfold Device.outboundEnds
  split
  next w work =>
    split
    next kind flow => exact (completeOutbound work flow).trans (finish _)
    · exact refl .idle d
  · exact refl .idle d

/-! ### Inbound completions -/

/-- The payload of an accepted frame laid in its cells, and the cells given to a master (R112, R113). -/
theorem layPass {g : Ghost} (d : Device) {f : Frame} {rest : List Frame} {c : Byte} (flow : f.flow = .inbound c)
    {payload : List Byte} (fits : payload.length ≤ f.size) (o : Owner) :
    Keeps { g with hand := f :: rest } d ({ g with hand := rest }.gains f)
      { d with store := (d.store.lay f.cells payload).pass (.done o) f.cells } := by
  have laid : Keeps { g with hand := f :: rest } d { g with hand := f :: rest }
      { d with store := d.store.lay f.cells payload } := by
    refine layHand d (List.mem_cons_self ..) payload fun room => ?_
    unfold Frame.Fits at room
    rw [flow] at room
    exact Nat.le_trans fits room
  exact laid.trans (endedPass _ o)

/-- The end of an authenticated inbound frame by its kind (R112, R113, R114). -/
theorem endAccepted {g : Ghost} (d : Device) {f : Frame} {rest : List Frame} {c : Byte} (flow : f.flow = .inbound c)
    (h : Header) {payload : List Byte} (fits : payload.length ≤ f.size) :
    Keeps { g with hand := f :: rest } d { g with hand := rest } (d.endAccepted f h payload) := by
  have accepted : Keeps { g with hand := f :: rest } d { g with hand := rest }
      (if f.orphan then d.freeCells f.cells
        else { d with store := (d.store.lay f.cells payload).pass (.done .traffic) f.cells }.answerInbound f .accepted
          (.accepted h.kind h.epoch h.sequence h.length f.cells)) :=
    ite (fun _ => endedQuiet d) fun _ => answerEnded flow (fun _ => layPass d flow fits .traffic) _ _
  unfold Device.endAccepted
  split
  · exact answerEnded flow (fun _ => endedFree d) _ _
  · exact answerEnded flow (fun _ => (handEcho d _ _ _).trans (endedFree _)) _ _
  · exact ite (fun _ => endedQuiet d) fun _ => ite
      (fun _ => answerEnded flow (fun _ => (layPass d flow fits .key).trans (pushNotice _ (by decide) _)) _ _) fun _ =>
        (answerEnded flow (fun _ => endedFree d) _ _).trans (give _ _ _)
  · exact accepted
  · exact accepted
  · exact accepted

/-- The key that judged a sequence number takes its window (R78). -/
theorem judged {g : Ghost} (d : Device) {w : InWork} {s : Nat} {k : KeyRecord}
    (judge : (d.boundKey w).bind (·.judge s) = some k) :
    Keeps g d g (d.modKeyOf w.frame.tunnel w.entry fun _ => k) := by
  obtain ⟨m, bound, is⟩ := Option.bind_eq_some_iff.mp judge
  obtain ⟨slot, found, holds⟩ := Option.bind_eq_some_iff.mp bound
  unfold Device.modKeyOf
  rw [found]
  refine modKey d _ _ _ fun m' holds' => ?_
  obtain rfl : m = m' := Option.some.inj (holds.symm.trans holds')
  exact KeyRecord.judge_core is

theorem judgeInbound {g : Ghost} (d : Device) {w : InWork} {rest : List Frame} {c : Byte}
    (flow : w.frame.flow = .inbound c) :
    Keeps { g with hand := w.frame :: rest } d { g with hand := rest } (d.judgeInbound w) := by
  unfold Device.judgeInbound
  simp only
  split
  · exact failInbound d flow _ _
  next verified =>
    split
    · exact failInbound d flow _ _
    next k judge =>
      obtain ⟨-, -, length, -⟩ := Wire.of_verifies (Classical.not_not.mp verified)
      have fits : w.frame.wire.payload.length ≤ w.frame.size := by
        rw [length]
        show (slice w.frame.content 16 (w.frame.size - 32)).length ≤ _
        rw [slice, List.length_take]
        omega
      exact ((((judged d judge).trans (followTest _ _ _)).trans (endAccepted _ flow _ fits)).trans
        ((authenticated _ _).trans (give _ _ _))).trans (uncount _ _)

theorem completeInbound {d : Device} {w : InWork} (work : d.engine.inWork = some w) {c : Byte}
    (flow : w.frame.flow = .inbound c) : Keeps .idle d .idle (d.completeInbound w) := by
  have judged := judgeInbound (g := { Ghost.idle with ended := some w }) (rest := []) d flow
  have left := leave (g := .idle) (d.judgeInbound w) w
  unfold Device.completeInbound
  exact (((detach rfl work).trans judged).trans left).trans (endClosing _ rfl _)

theorem finishInbound (d : Device) (before : Nat) : Keeps .idle d .idle (d.finishInbound before) := by
  obtain ⟨ns, -, h⟩ := d.finishInbound_notices before
  rw [h]
  refine (finish d).trans ?_
  generalize d.finish = e
  exact modPort e .key _ rfl (Nat.le_refl _) (.inr (by decide))

theorem inboundEnds (d : Device) : Keeps .idle d .idle d.inboundEnds := by
  unfold Device.inboundEnds
  split
  next w work =>
    split
    next c flow => exact (completeInbound work flow).trans (finishInbound _ _)
    · exact refl .idle d
  · exact refl .idle d

end Keeps

/-! ### Derivations -/

/-- The job in progress ends: its response is owed no longer (R62, R63, R174). -/
theorem Keeps.endJob {g : Ghost} {d b : Device} {j : Job} {rest : List Job} (jobs : d.keys.jobs = j :: rest)
    (left : b.keys.jobs = rest) (keys : KeysLaw d → KeysLaw b) (tunnel : ∀ u, (d.tunnel u).SameLife (b.tunnel u))
    (tags : ∀ u, (b.tunnel u).closeTag = (d.tunnel u).closeTag) (frames : SameFrames d b := by exact {})
    (port : ∀ p, b.port p = d.port p := by exact fun _ => rfl) (proofs : b.proofs = d.proofs := by rfl)
    (saving : b.saving = d.saving := by rfl) : Keeps g d (g.plus .key (bit j.owed.isSome)) b := by
  have traffic : b.traffic = d.traffic := port .traffic
  refine ⟨fun law => (law.congr frames).ghost, fun law => law.change (fun p => ?_) (fun p => Nat.le_of_eq (by rw [port]))
    (fun t _ h => (tags t).trans h) fun f is => .inl (frames.held g ▸ is),
    NoticesKept.congr frames (Nat.le_of_eq (by rw [traffic])),
    fun law => (law.congr (b := b) ⟨by rw [proofs], by rw [proofs], tunnel⟩).ghost,
    fun law => (law.change frames.inWork keys).ghost⟩
  have held : (g.plus .key (bit j.owed.isSome)).held b = g.held d := frames.held g
  unfold Ghost.owed
  rw [held, port]
  cases p with
  | traffic => exact Nat.le_refl _
  | key =>
    show _ + b.keys.jobs.countP _ + (g.spare .key + bit j.owed.isSome) + _ ≤ _ + d.keys.jobs.countP _ + g.spare .key + _
    rw [jobs, left, List.countP_cons]
    have one : bit j.owed.isSome = if j.owed.isSome = true then 1 else 0 := rfl
    omega
  | operations =>
    have same : b.owedElse .operations = d.owedElse .operations := by
      unfold Device.owedElse
      simp only [tags, saving]
    rw [same]
    exact Nat.le_refl _

/-- A deferred response of a job, where it is owed. -/
theorem Keeps.answerJob {g : Ghost} (d : Device) (owed : Option (BitVec 16)) (c : Nat) (st : Status) (b : Body) :
    Keeps (g.plus .key (bit owed.isSome)) d g (match owed with
      | some tag => d.answerDeferred .key tag c st .none b
      | none => d) := by
  cases owed with
  | some tag => exact answerDeferred d .key tag c st .none b
  | none => exact waivePlus d _ _

/-- The part with the job in progress delivered, its entry as it stood. -/
def Device.delivered (d : Device) (j : Job) (rest : List Job) : Device :=
  ({ d with keys := { d.keys with jobs := rest } } : Device).modTunnel j.tunnel fun x =>
    { x with next := x.next.map fun n => { n with ready := true }, inDerivation := false }

theorem KeysLaw.delivered {d : Device} (law : KeysLaw d) {j : Job} {rest : List Job} (jobs : d.keys.jobs = j :: rest) :
    KeysLaw (d.delivered j rest) :=
  law.deliver jobs rfl (fun _ => rfl) (fun _ => Device.tunnel_modTunnel ..) rfl

/-- The NEXT key that the job in progress fills. -/
theorem KeysLaw.filled {d : Device} (law : KeysLaw d) {j : Job} {rest : List Job} (jobs : d.keys.jobs = j :: rest) :
    ∃ n, (d.tunnel j.tunnel).next = some n ∧ n.key.entry = j.entry ∧ n.key.bound = false
      ∧ d.keys.entry j.entry ≠ .free := by
  obtain ⟨n, next, ready, -, entry⟩ := law.job j (jobs ▸ List.mem_cons_self ..)
  exact ⟨n, next, entry, (law.deriving_ _ n next ready).1, (law.used _).mpr ⟨_, _, _, Device.holds_next next, entry⟩⟩

namespace Keeps

theorem deriveKeys {d : Device} {j : Job} {rest : List Job} (jobs : d.keys.jobs = j :: rest) :
    Keeps .idle d .idle (({ d with keys := { d.keys with jobs := rest } } : Device).deriveKeys j) := by
  unfold Device.deriveKeys
  simp only
  refine (trans ?_ (answerJob _ j.owed 7 _ _)).trans (give _ _ _)
  have edit := KeyEdit.modTunnel d j.tunnel (fun x =>
    { x with next := x.next.map fun n => { n with ready := true }, inDerivation := false }) {} rfl
  refine endJob jobs rfl (fun law => ?_) edit.life edit.tag
  obtain ⟨n, -, -, -, used⟩ := law.filled jobs
  refine (law.delivered jobs).rekey rfl rfl (fun _ => rfl) fun e => ?_
  refine iff_of_eq (congrArg (· = KeyEntry.free) (d.entry_setEntry j.entry e _)) |>.trans ?_
  split
  next here => exact iff_of_false (fun h => (nomatch h)) (here ▸ used)
  next => exact Iff.rfl

theorem abandonKeys {d : Device} {j : Job} {rest : List Job} (jobs : d.keys.jobs = j :: rest) :
    Keeps .idle d .idle (({ d with keys := { d.keys with jobs := rest } } : Device).abandonKeys j) := by
  unfold Device.abandonKeys
  simp only
  refine (trans ?_ (answerJob _ j.owed 7 _ _)).trans (endClosing _ rfl _)
  have edit := KeyEdit.modTunnel d j.tunnel (fun x => { x with next := none, inDerivation := false }) {} rfl
  refine endJob jobs rfl (fun law => ?_) edit.life edit.tag
  obtain ⟨n, next, entry, unbound, -⟩ := law.filled jobs
  have record : (d.delivered j rest).tunnel j.tunnel = { d.tunnel j.tunnel with
      next := (d.tunnel j.tunnel).next.map fun n => { n with ready := true }, inDerivation := false } :=
    (Device.tunnel_modTunnel ..).trans (if_pos rfl)
  have ready : ((d.delivered j rest).tunnel j.tunnel).next = some { n with ready := true } := by
    rw [record, next]
    rfl
  have dropped := (law.delivered jobs).dropKey (s := .next) (k := n.key)
    (Device.holds_next (n := { n with ready := true }) ready) unbound
    fun _ m is => (Option.some.inj (ready.symm.trans is)) ▸ rfl
  refine KeysLaw.congr (a := ((d.delivered j rest).setEntry n.key.entry .free).modTunnel j.tunnel (·.dropKey .next))
    ⟨fun e => ?_, rfl, rfl, fun u => ?_⟩ dropped
  · rw [entry]
    rfl
  · have same : ((({ d with keys := { d.keys with jobs := rest } } : Device).setEntry j.entry .free).modTunnel j.tunnel
        fun x => { x with next := none, inDerivation := false }).tunnel u
        = (((d.delivered j rest).setEntry n.key.entry .free).modTunnel j.tunnel (·.dropKey .next)).tunnel u := by
      rw [Device.tunnel_modTunnel, Device.tunnel_modTunnel]
      split
      · show _ = ((d.delivered j rest).tunnel j.tunnel).dropKey .next
        rw [record]
        rfl
      next away =>
        show d.tunnel u = (d.delivered j rest).tunnel u
        unfold Device.delivered
        rw [Device.tunnel_modTunnel, if_neg away]
        rfl
    rw [same]
    exact {}

theorem completeJob (d : Device) : Keeps .idle d .idle d.completeJob := by
  unfold Device.completeJob
  split
  · exact refl .idle d
  next j rest jobs => exact (ite (fun _ => abandonKeys jobs) fun _ => deriveKeys jobs).trans (finish _)

end Keeps

end Sys2Proof.Machine
end

/-! PROOF. Every invariant over the requests' own parts that concern cells, frames and keys (R17, R18, R24, R57, R66, R72,
R90, R97, R98, R99). -/
section

namespace Sys2Proof.Machine

-- One theorem at a time, so that the threads of the whole text stay within its memory.
set_option Elab.async false

/-! ### What a request's own part comes to -/

/-- What a request's own part comes to keeps the invariants, with the places reserved for its response: they stand for
the response that is queued at once, and are those of the deferred response where the request waits (R173, R174). -/
def Taken.Holds (d : Device) (p : Port) (places : Nat) : Taken → Prop
  | .refuse _ => True
  | .quiet e r | .answer e r => Machine.Keeps (Ghost.idle.plus p places) d (Ghost.idle.plus p places) e
      ∧ recordsFor places r.body ≤ places
  | .wait e => Machine.Keeps (Ghost.idle.plus p places) d .idle e

theorem Taken.Holds.ite {d : Device} {p : Port} {n : Nat} {c : Prop} [Decidable c] {x y : Taken}
    (hx : c → x.Holds d p n) (hy : ¬ c → y.Holds d p n) : (if c then x else y).Holds d p n := by
  split
  · exact hx ‹_›
  · exact hy ‹_›

/-- A body that is no list of cells takes no more records than its places (R175). -/
theorem recordsFor_le {n : Nat} (some_ : 1 ≤ n) {b : Body} (other : ∀ cells, b ≠ .cells cells) : recordsFor n b ≤ n := by
  have := (recordsFor_spec n b).2.2.2 other
  omega

theorem Taken.Holds.tell (d : Device) (p : Port) {n : Nat} (some_ : 1 ≤ n) {b : Body} (other : ∀ cells, b ≠ .cells cells) :
    (Taken.tell d b).Holds d p n :=
  ⟨.refl _ d, recordsFor_le some_ other⟩

/-- What the common tests have found of a request that passes them (R173). -/
theorem commonTests_none {p : Port} {row : CatalogueRow} {q : Request} (passes : commonTests p row q = none) :
    p ∈ row.ports ∧ (row.namesTunnel = true → q.device = false → q.tunnel < 480) := by
  unfold commonTests at passes
  split at passes
  · exact nomatch passes
  next port =>
  split at passes
  · exact nomatch passes
  split at passes
  · exact nomatch passes
  next tunnel =>
  refine ⟨Classical.not_not.mp port, fun names other => Nat.lt_of_not_le fun big => tunnel ⟨names, ?_, big⟩⟩
  rw [other]
  exact Bool.false_ne_true

/-- A cell that a master may touch is held by no frame (R15). -/
theorem CellStore.away_of_touchable {c : CellStore} {p : Port} {n : Nat} (may : c.touchable p n = true) :
    ¬ ((c.cell n).state = .queued ∨ (c.cell n).state = .inWork) := by
  unfold CellStore.touchable at may
  split at may
  next o _ =>
    obtain is | is := (Bool.or_eq_true ..).mp may <;> rw [of_decide_eq_true is] <;>
      exact fun h => h.elim CellState.noConfusion CellState.noConfusion
  · exact nomatch may

/-- The cells of a frame request that its tests let through (R24). -/
theorem Device.cellTests_none {d : Device} {o : Owner} {count : Nat} {cells : List Nat} {size : Nat}
    (passes : d.cellTests o count cells size = none) :
    cells.Nodup ∧ (∀ n ∈ cells, (d.store.cell n).state = .claimed o) ∧ size ≤ cells.length * 256 := by
  rw [Device.cellTests_eq] at passes
  split at passes
  · exact nomatch passes
  next named =>
  split at passes
  · exact nomatch passes
  next owned =>
  split at passes
  · exact nomatch passes
  next room =>
  refine ⟨?_, fun n mem => ?_, by omega⟩
  · refine Classical.byContradiction fun twice => ?_
    exact named (.inr (.inr (.inr twice)))
  · refine Classical.byContradiction fun other => ?_
    exact owned ⟨n, mem, other⟩

namespace Keeps

variable (d : Device)

/-! ### Cells -/

theorem claim (p : Port) (q : Request) : (d.claim p q).Holds d p 2 := by
  unfold Device.claim
  obtain ⟨pool, owner⟩ := claimAs p
  refine .ite (fun _ => trivial) fun _ => .ite (fun room => ⟨?_, ?_⟩) fun _ => ⟨give d _ _, recordsFor_le (by decide) nofun⟩
  · exact take d pool CellState.noConfusion room
  · show recordsFor 2 (.cells _) ≤ 2
    rw [(recordsFor_spec 2 _).2.2.1 _ rfl]
    split <;> decide

theorem release (p : Port) (q : Request) : (d.release p q).Holds d p 1 := by
  unfold Device.release
  refine .ite (fun _ => trivial) fun _ => .ite (fun _ => trivial) fun owned =>
    ⟨freeCells d _ fun n mem => ?_, recordsFor_le (by decide) nofun⟩
  exact CellStore.away_of_touchable (List.all_eq_true.mp (Classical.not_not.mp owned) n mem)

/-! ### Frames -/

theorem sendFrame (q : Request) : (d.sendFrame q).Holds d .traffic 1 := by
  unfold Device.sendFrame
  simp only
  split
  · trivial
  next k _ =>
    refine .ite (fun _ => trivial) fun _ => ?_
    split
    · trivial
    next passes =>
      obtain ⟨distinct, owned, fits⟩ := Device.cellTests_none passes
      refine .ite (fun _ => ?_) fun _ => trivial
      refine submit d k _ rfl owned distinct ?_ (fun _ _ => rfl) (.inl ⟨rfl, rfl⟩)
      show (d.store.readSeq _ 0 _).length + 32 ≤ _
      rw [length_readSeq]
      exact fits

theorem receiveFrame (q : Request) : (d.receiveFrame q).Holds d .traffic 1 := by
  unfold Device.receiveFrame
  simp only
  split
  · trivial
  next k _ =>
    refine .ite (fun _ => trivial) fun _ => ?_
    split
    · trivial
    next passes =>
      obtain ⟨distinct, owned, fits⟩ := Device.cellTests_none passes
      refine .ite (fun _ => ?_) fun _ => trivial
      refine submit d _ _ rfl owned distinct ?_ (fun _ _ => rfl) (.inl ⟨rfl, rfl⟩)
      show (d.store.readSeq _ 0 _).length ≤ _
      rw [length_readSeq]
      exact fits

theorem sendDialogue (q : Request) : (d.sendDialogue q).Holds d .key 1 := by
  unfold Device.sendDialogue
  refine .ite (fun _ => trivial) fun _ => ?_
  split
  · trivial
  next passes =>
    obtain ⟨distinct, owned, fits⟩ := Device.cellTests_none passes
    refine .ite (fun _ => trivial) fun _ => .ite (fun _ => trivial) fun room => ?_
    refine submit d .control _ rfl owned distinct ?_ (fun _ h => nomatch h) (.inr ⟨rfl, rfl, Classical.not_not.mp room⟩)
    show (d.store.readSeq _ 0 _).length + 32 ≤ _
    rw [length_readSeq]
    exact fits

/-! ### Keys -/

/-- An installation is accepted: its response is owed by its job (R59, R61, R174). -/
theorem acceptInstall {g : Ghost} (q : Request) {epoch : Nat} (secret : BitVec 256)
    (accepted : d.installRefusal q.tunnel epoch = none) :
    Keeps (g.plus .key 1) d g (d.acceptInstall q epoch (d.keys.lowestFree.getD 0) secret) := by
  obtain ⟨absent, free, -⟩ := Device.installRefusal_none accepted
  obtain ⟨entry, lowest⟩ := Option.ne_none_iff_exists'.mp free
  obtain ⟨small, free, -⟩ := KeyUnit.lowestFree_spec lowest
  rw [lowest]
  unfold Device.acceptInstall
  simp only [Option.getD_some]
  obtain ⟨fs, bk, ns, low⟩ := (d.setEntry entry .blank).lowMarkTest_only d.keys.freeCount
  rw [low]
  let c : Device := { d.setEntry entry .blank with
    faults := fs, bank := bk, operations := { d.operations with notices := ns } }
  let f : Tunnel → Tunnel := fun x => { x with next := some ⟨false, KeyRecord.installed epoch entry⟩, inDerivation := true }
  let j : Job := ⟨q.tunnel, epoch, entry, secret, some q.tag⟩
  let b : Device := { c.modTunnel q.tunnel f with keys := { c.keys with jobs := c.keys.jobs ++ [j] } }
  show Keeps (g.plus .key 1) d g b
  have life : ∀ u, (d.tunnel u).SameLife (b.tunnel u) := c.eachTunnel q.tunnel f (P := Tunnel.SameLife) (fun _ => {}) {}
  have tag : ∀ u, (b.tunnel u).closeTag = (d.tunnel u).closeTag :=
    c.eachTunnel q.tunnel f (P := fun x y => y.closeTag = x.closeTag) (fun _ => rfl) rfl
  have port : ∀ p, (b.port p).reserved = (d.port p).reserved ∧ (b.port p).responses = (d.port p).responses := by
    intro p
    cases p <;> exact ⟨rfl, rfl⟩
  refine ⟨fun law => (law.congr (b := b) {}).ghost, fun law => law.change (fun p => ?_) (fun p => ?_)
    (fun t _ none_ => (tag t).trans none_) (fun f is => .inl is), NoticesKept.congr {} (Nat.le_refl _),
    fun law => (law.congr (b := b) { tunnel := life }).ghost, fun law => (law.change (b := b) rfl fun keys => ?_).ghost⟩
  · have held : g.held b = (g.plus .key 1).held d := rfl
    unfold Ghost.owed
    rw [held, (port p).1]
    cases p with
    | traffic => exact Nat.le_refl _
    | key =>
      show _ + (d.keys.jobs ++ [j]).countP _ + g.spare .key + _ ≤ _ + d.keys.jobs.countP _ + (g.spare .key + 1) + _
      rw [List.countP_append, List.countP_singleton]
      have one : (if j.owed.isSome = true then 1 else 0) = 1 := rfl
      omega
    | operations =>
      have same : b.owedElse .operations = d.owedElse .operations := by
        unfold Device.owedElse
        simp only [tag]
        rfl
      rw [same]
      exact Nat.le_refl _
  · exact Nat.le_of_eq (by rw [(port p).1, (port p).2])
  · refine keys.install (b := b) (t := q.tunnel) absent free small (j := j) ⟨rfl, rfl, rfl⟩ rfl
      (fun e => ?_) (fun u => ?_) rfl
    · exact d.entry_setEntry entry e .blank
    · exact Device.tunnel_modTunnel ..

theorem installKey (q : Request) : (d.installKey q).Holds d .key 1 := by
  unfold Device.installKey
  refine .ite (fun _ => trivial) fun _ => .ite (fun _ => trivial) fun secret => ?_
  have claimed := (d.store.secretCell_iff _).mp (Classical.not_not.mp secret)
  have freed : ∀ g, Keeps g d g (d.freeCells [q.num 1 2]) := fun g => freeCells d _ fun n mem => by
    rw [List.mem_singleton.mp mem, claimed]
    exact fun h => h.elim CellState.noConfusion CellState.noConfusion
  refine .ite (fun _ => ⟨freed _, recordsFor_le (by decide) nofun⟩) fun _ => ?_
  split
  · exact ⟨freed _, recordsFor_le (by decide) nofun⟩
  next accepted => exact (freed _).trans (acceptInstall _ q _ accepted)

theorem discardNext (q : Request) : (d.discardNext q).Holds d .key 1 := by
  unfold Device.discardNext
  refine .ite (fun _ => trivial) fun _ => ?_
  split
  · trivial
  next n next =>
    refine .ite (fun ready => ⟨retireKey d _ _ fun _ m is => ?_, recordsFor_le (by decide) nofun⟩) fun _ => trivial
    exact Option.some.inj (next.symm.trans is) ▸ ready

theorem promoteRequest (q : Request) : (d.promoteRequest q).Holds d .key 1 := by
  unfold Device.promoteRequest
  refine .ite (fun _ => trivial) fun _ => .ite (fun _ => trivial) fun _ => .ite
    (fun _ => ⟨refl _ d, recordsFor_le (by decide) nofun⟩) fun _ => .ite (fun stands => ?_) fun _ => trivial
  obtain ⟨n, next, is⟩ := (Option.any_eq_true _ _).mp stands
  simp only [Bool.and_eq_true] at is
  exact ⟨promote d _ next is.1.1, recordsFor_le (by decide) nofun⟩

theorem retirePrevious (q : Request) : (d.retirePrevious q).Holds d .key 1 := by
  unfold Device.retirePrevious
  refine .ite (fun _ => trivial) fun _ => ?_
  split
  · trivial
  · exact .ite (fun _ => ⟨refl _ d, recordsFor_le (by decide) nofun⟩) fun _ =>
      ⟨retireKey d _ _ fun h => (nomatch h), recordsFor_le (by decide) nofun⟩

end Keeps

end Sys2Proof.Machine
end

/-! PROOF. Every invariant over the requests' own parts that concern tunnels, proofs and the device, and over the taking of
a request (R36, R39, R45, R48, R135, R153..R156, R165..R168, R173, R183). -/
section

namespace Sys2Proof.Machine

-- One theorem at a time, so that the threads of the whole text stay within its memory.
set_option Elab.async false

namespace Keeps

variable (d : Device)

/-! ### Notices removed -/

theorem removeNotices {g : Ghost} (gone : Notice → Bool) : Keeps g d g (d.removeNotices gone) := by
  unfold Device.removeNotices
  exact ite (fun _ => refl g d) fun _ => ((modPort d .operations _ rfl (Nat.le_refl _) (.inr (by decide))).trans
    (faultScan _ _)).trans (retryStartTest _)

/-! ### Tunnels -/

theorem openTunnel (q : Request) (small : q.tunnel < 480) : (d.openTunnel q).Holds d .operations 1 := by
  unfold Device.openTunnel
  refine .ite (fun _ => trivial) fun _ => .ite (fun _ => trivial) fun empty => .ite (fun _ => trivial) fun _ =>
    ⟨trans ?_ (removeNotices _ _), recordsFor_le (by decide) nofun⟩
  have empty : (d.tunnel q.tunnel).state = .empty := Classical.not_not.mp empty
  refine lifeOnly (fun law => law.turn ?_ TunnelState.noConfusion rfl (.inl small) fun h => (nomatch h))
    (places := { tags := d.eachTunnel q.tunnel _ (P := fun x y => y.closeTag = x.closeTag) (fun _ => rfl) rfl })
    (keys := { tunnel := d.eachTunnel q.tunnel _ (P := Tunnel.SameKeys) (fun _ => {}) {} })
  rw [empty]
  exact TunnelState.noConfusion

/-- A tunnel becomes CLOSING, with the response of the close owed; it leaves the retry queue, and a proof on it leaves the
proof unit (R39, R151, R174). -/
theorem shut {g : Ghost} {a b : Device} {t : Nat} (open_ : g.closing = none) (small : t < 480)
    (live : (a.tunnel t).state ≠ .empty) (closing : (b.tunnel t).state = .closing)
    (others : ∀ u, u ≠ t → b.tunnel u = a.tunnel u) (slots : (a.tunnel t).SameKeys (b.tunnel t))
    (retry : b.proofs.retry = a.proofs.retry.filter fun u => u != t)
    (running : b.proofs.running = if a.proofs.running.any (fun r => decide (r.tunnel = t)) then none else a.proofs.running)
    (frames : SameFrames a b := by exact {}) (port : ∀ p, b.port p = a.port p := by exact fun _ => rfl)
    (keys : b.keys = a.keys := by rfl) (saving : b.saving = a.saving := by rfl) :
    Keeps (g.plus .operations 1) a { g with closing := some t } b := by
  have traffic : b.traffic = a.traffic := port .traffic
  have slots : ∀ u, (a.tunnel u).SameKeys (b.tunnel u) := by
    intro u
    by_cases here : u = t
    · exact here ▸ slots
    · rw [others u here]
      exact {}
  refine ⟨fun law => (law.congr frames).ghost, fun law => law.change (fun p => ?_) (fun p => Nat.le_of_eq (by rw [port]))
    (fun u high none_ => ?_) fun f is => .inl (frames.held g ▸ is),
    NoticesKept.congr frames (Nat.le_of_eq (by rw [traffic])),
    fun law => RetryLaw.close (law.ghost (h := g)) open_ live closing others retry running,
    fun law => (law.change frames.inWork
      (.congr ⟨fun e => by rw [keys], by rw [keys], by rw [frames.inWork], slots⟩)).ghost⟩
  · have held : ({ g with closing := some t } : Ghost).held b = (g.plus .operations 1).held a := frames.held g
    unfold Ghost.owed
    rw [held, port]
    cases p with
    | traffic => exact Nat.le_refl _
    | key =>
      show _ + b.keys.jobs.countP _ + _ + _ ≤ _
      rw [keys]
      exact Nat.le_refl _
    | operations =>
      show _ + (_ + bit _) + g.spare .operations + _ ≤ _ + (_ + bit _) + (g.spare .operations + 1) + _
      have count := countP_range_change (p := fun u => (a.tunnel u).closeTag.isSome)
        (q := fun u => (b.tunnel u).closeTag.isSome) small fun u away => by rw [others u away]
      have one : ∀ x, bit x ≤ 1 := fun x => by cases x <;> decide
      have := one (b.tunnel t).closeTag.isSome
      rw [saving]
      omega
  · rw [others u fun here => absurd small (here ▸ Nat.not_lt.mpr high)]
    exact none_

end Keeps

/-- A proof that a close ends: it leaves the proof unit, its tunnel gets no retry result (R149, R150, R151). -/
theorem Device.endProof_closing {d : Device} {r : ProofRecord} (running : d.proofs.running = some r) :
    ∃ last n, d.endProof .aborted (some .closing) =
      ((((({ d with proofs := { d.proofs with running := none, last := last } } : Device).modTunnel r.tunnel fun x =>
        { x with underProof := false }).pushNotice .operations n).proofFault r .aborted
          (some .closing)).retryStartTest) := by
  unfold Device.endProof
  have plain : ∀ e : Device,
      (if r.purpose = .retry then e.retryResult r.tunnel .aborted (some .closing) else e) = e := fun e => by
    split <;> rfl
  rw [running]
  simp only [plain]
  exact ⟨_, _, rfl⟩

namespace Keeps

variable (d : Device)

/-- The first steps of a close, up to the end of a proof on the tunnel (R39, R151). -/
theorem closes {g : Ghost} {t : Nat} (open_ : g.closing = none) (small : t < 480) (live : (d.tunnel t).state ≠ .empty)
    (tag : BitVec 16) :
    Keeps (g.plus .operations 1) d { g with closing := some t }
      (({ d.modTunnel t (fun x => { x with state := .closing, closeTag := some tag }) with
          proofs := { d.proofs with retry := d.proofs.retry.filter fun u => u != t } } : Device).abortProof t .closing
        anyPurpose) := by
  let e := d.modTunnel t fun x => { x with state := .closing, closeTag := some tag }
  let c : Device := { e with proofs := { d.proofs with retry := d.proofs.retry.filter fun u => u != t } }
  have here : e.tunnel t = { d.tunnel t with state := .closing, closeTag := some tag } :=
    (Device.tunnel_modTunnel ..).trans (if_pos rfl)
  have here : c.tunnel t = { d.tunnel t with state := .closing, closeTag := some tag } := here
  have others : ∀ u, u ≠ t → e.tunnel u = d.tunnel u := fun u away => (Device.tunnel_modTunnel ..).trans (if_neg away)
  have others : ∀ u, u ≠ t → c.tunnel u = d.tunnel u := others
  show Keeps (g.plus .operations 1) d { g with closing := some t } (c.abortProof t .closing anyPurpose)
  obtain ⟨aborts, stands⟩ := c.abortProof_eq t .closing anyPurpose
  by_cases on : ∃ r, c.proofs.running = some r ∧ r.tunnel = t ∧ anyPurpose r.purpose = true
  · obtain ⟨r, running, rfl, -⟩ := id on
    obtain ⟨last, n, ended⟩ := Device.endProof_closing running
    rw [aborts on, ended]
    refine ((trans ?_ (pushNotice _ (by decide) _)).trans (proofFault _ _ _ _)).trans (retryStartTest _)
    have record : ((({ c with proofs := { c.proofs with running := none, last := last } } : Device).modTunnel r.tunnel
        fun x => { x with underProof := false }).tunnel r.tunnel) = { c.tunnel r.tunnel with underProof := false } :=
      (Device.tunnel_modTunnel ..).trans (if_pos rfl)
    have running : d.proofs.running = some r := running
    refine shut open_ small live ?_ (fun u away => ?_) ?_ rfl ?_
    · rw [record, here]
    · exact ((Device.tunnel_modTunnel ..).trans (if_neg away)).trans (others u away)
    · rw [record, here]
      exact {}
    · rw [running, Option.any_some, if_pos (decide_eq_true rfl)]
      rfl
  · rw [stands on]
    refine shut open_ small live (by rw [here]) others (by rw [here]; exact {}) rfl ?_
    show d.proofs.running = _
    rw [if_neg]
    intro some_
    obtain ⟨r, running, same⟩ := (Option.any_eq_true _ _).mp some_
    exact on ⟨r, running, of_decide_eq_true same, rfl⟩

/-- The hold of the tunnel being closed is stopped, and its timers (R39, R120). -/
theorem unhold (t : Nat) : Keeps { Ghost.idle with closing := some t } d .idle
    (d.modTunnel t fun x => { x with holdDeadline := none }.modCondition Condition.stopped) := by
  let f : Tunnel → Tunnel := fun x => { x with holdDeadline := none }.modCondition Condition.stopped
  have tunnel := fun (P : Tunnel → Tunnel → Prop) => d.eachTunnel t f (P := P)
  exact ⟨fun law => (law.congr (b := d.modTunnel t f) {}).ghost,
    fun law => PlacesLaw.congr (a := d) {} { tags := tunnel (fun x y => y.closeTag = x.closeTag) (fun _ => rfl) rfl }
      ⟨law.reserved, law.room, law.tags, law.inbound⟩,
    NoticesKept.congr {} (Nat.le_refl _), fun law => RetryLaw.closed (g := .idle) law rfl rfl,
    fun law => (law.change (b := d.modTunnel t f) rfl (.congr { tunnel := tunnel Tunnel.SameKeys (fun _ => {}) {} })).ghost⟩

theorem closeTunnel (q : Request) (small : q.tunnel < 480) : (d.closeTunnel q).Holds d .operations 1 := by
  unfold Device.closeTunnel
  refine .ite (fun _ => trivial) fun live => ?_
  have live : (d.tunnel q.tunnel).state ≠ .empty := by
    intro empty
    rw [empty] at live
    exact live Bool.false_ne_true
  have closed := closes (g := .idle) d rfl small live q.tag
  show Keeps (Ghost.idle.plus .operations 1) d .idle (Device.endClosing _ q.tunnel)
  refine trans ?_ (endClosing (g := .idle) _ rfl _)
  refine trans (closed.trans (removeFrames _ q.tunnel)) ?_
  exact unhold _ q.tunnel

theorem setHolds (q : Request) : (d.setHolds q).Holds d .operations 1 := by
  unfold Device.setHolds
  simp only
  split
  · refine .ite (fun _ => trivial) fun _ => ⟨?_, recordsFor_le (by decide) nofun⟩
    have set_ := fun f h => modTunnel (g := Ghost.idle.plus .operations 1) d q.tunnel f h
    exact ite (fun _ => (set_ _ {}).trans (abortProof _ _ _ _ fun h => (nomatch h))) fun _ => set_ _ {}
  · trivial

theorem writeProfile (q : Request) : (d.writeProfile q).Holds d .operations 1 := by
  unfold Device.writeProfile
  refine .ite (fun _ => trivial) fun _ => ?_
  split
  · trivial
  · split
    · trivial
    · exact ⟨ite (fun _ => (setProfiles d _).trans (reexamine _ _)) fun _ => setProfiles d _,
        recordsFor_le (by decide) nofun⟩

theorem ackFault (q : Request) : (d.ackFault q).Holds d .operations 1 := by
  have tunnel : ∀ k, (d.ackTunnel q.tunnel k).Holds d .operations 1 := by
    intro k
    unfold Device.ackTunnel
    split
    · exact ⟨refl _ d, recordsFor_le (by decide) nofun⟩
    · exact ⟨((setLatch d _ _ _).trans (modCondition _ _ _)).trans (removeNotices _ _), recordsFor_le (by decide) nofun⟩
  have device : ∀ k, (d.ackDevice k).Holds d .operations 1 := by
    intro k
    unfold Device.ackDevice
    split
    · exact ⟨refl _ d, recordsFor_le (by decide) nofun⟩
    · exact ⟨(setFaults d _).trans (removeNotices _ _), recordsFor_le (by decide) nofun⟩
  unfold Device.ackFault
  split
  · split
    · exact device _
    · trivial
  · split
    · exact tunnel _
    · trivial

/-! ### Proofs -/

theorem startRequest (q : Request) : (d.startRequest q).Holds d .operations 1 := by
  unfold Device.startRequest
  simp only
  split
  · trivial
  · refine .ite (fun _ => trivial) fun _ => .ite (fun _ => trivial) fun busy => .ite (fun _ => trivial) fun _ =>
      .ite (fun _ => trivial) fun _ => ⟨startProof d ?_ _ _ _, recordsFor_le (by decide) nofun⟩
    exact Option.not_isSome_iff_eq_none.mp fun some_ => busy (.inl some_)

theorem stopRequest (q : Request) : (d.stopRequest q).Holds d .operations 1 := by
  unfold Device.stopRequest
  split
  next r running =>
    split
    next purpose =>
      refine ⟨endProof d _ _ fun r' running' retry => ?_, recordsFor_le (by decide) nofun⟩
      obtain rfl : r = r' := Option.some.inj (running.symm.trans running')
      exact nomatch purpose.symm.trans retry
    · trivial
  · trivial

/-- A FAILED tunnel is ISOLATED again and joins the retry queue (R156). -/
theorem rejoin {g : Ghost} {t : Nat} {f : Tunnel → Tunnel} (open_ : g.closing = none)
    (away : RetryLaw g d → t ∉ d.proofs.retry ∧ ¬ d.Retries t) (small : RetryLaw g d → (d.tunnel t).state ≠ .empty)
    (isolated : RetryLaw g d → (f (d.tunnel t)).state = .isolated) (none_ : (f (d.tunnel t)).holdDeadline = none)
    (keys : (d.tunnel t).SameKeys (f (d.tunnel t))) (tag : (f (d.tunnel t)).closeTag = (d.tunnel t).closeTag) :
    Keeps g d g ((d.modTunnel t f).joinRetry t) := by
  unfold Device.joinRetry
  refine trans ?_ (retryStartTest _)
  exact lifeOnly (fun law => law.join (away law).1 (away law).2 (isolated law) none_ (small law)
      (by rw [open_]; exact nofun))
    (places := { tags := d.eachTunnel t f (P := fun x y => y.closeTag = x.closeTag) (fun _ => rfl) tag })
    (keys := { tunnel := d.eachTunnel t f (P := Tunnel.SameKeys) (fun _ => {}) keys })

theorem restore (q : Request) : (d.restore q).Holds d .operations 1 := by
  unfold Device.restore
  refine .ite (fun _ => trivial) fun failed => ⟨?_, recordsFor_le (by decide) nofun⟩
  have failed : (d.tunnel q.tunnel).state = .failed := Classical.not_not.mp failed
  refine rejoin d rfl (fun law => ⟨fun waits => ?_, fun retries => ?_⟩) (fun _ => ?_) (fun _ => rfl) rfl {} rfl
  · exact nomatch failed.symm.trans (law.member _ waits).1
  · obtain ⟨r, running, purpose, same⟩ := retries
    exact nomatch (same ▸ failed).symm.trans (law.running r running purpose).1
  · rw [failed]
    exact TunnelState.noConfusion

theorem writePattern (q : Request) : (d.writePattern q).Holds d .operations 1 := by
  unfold Device.writePattern
  exact .ite (fun _ => trivial) fun _ => .ite (fun _ => trivial) fun _ =>
    ⟨setProofs d _ rfl rfl, recordsFor_le (by decide) nofun⟩

/-! ### The monitor bank, reads and saves -/

theorem setMonitor (q : Request) : (d.setMonitor q).Holds d .operations 1 := by
  unfold Device.setMonitor
  simp only
  split
  · trivial
  · refine .ite (fun _ => trivial) fun _ => ?_
    split
    · trivial
    · exact .ite (fun _ => trivial) fun _ => ⟨setBank d _, recordsFor_le (by decide) nofun⟩

theorem freezeBank (q : Request) : (d.freezeBank q).Holds d .operations 1 := by
  unfold Device.freezeBank
  split
  · exact ⟨setBank d _, recordsFor_le (by decide) nofun⟩
  · exact ⟨refl _ d, recordsFor_le (by decide) nofun⟩

theorem thawBank (q : Request) : (d.thawBank q).Holds d .operations 1 := by
  unfold Device.thawBank
  split
  · exact ⟨setBank d _, recordsFor_le (by decide) nofun⟩
  · exact ⟨refl _ d, recordsFor_le (by decide) nofun⟩

theorem tellProfile (q : Request) : (d.tellProfile q).Holds d .operations 2 := by
  unfold Device.tellProfile
  simp only
  split
  · trivial
  · exact .ite (fun _ => trivial) fun _ => .tell d _ (by decide) nofun

/-- A save begins: its response is owed by it (R174, R183). -/
theorem save (q : Request) : (d.save q).Holds d .operations 1 := by
  unfold Device.save
  split
  · trivial
  next x _ =>
    refine .ite (fun _ => trivial) fun idle => ?_
    have none_ : d.saving = none := Option.not_isSome_iff_eq_none.mp idle
    let b : Device := { d with saving := some ⟨d.copyOf x, some q.tag⟩ }
    show Keeps (Ghost.idle.plus .operations 1) d .idle b
    refine ⟨fun law => (law.congr (b := b) {}).ghost, fun law => law.change (b := b) (fun p => ?_) (fun _ => Nat.le_refl _)
      (fun _ _ none_ => none_) fun f is => .inl is, NoticesKept.congr {} (Nat.le_refl _),
      fun law => (law.congr (b := b) {}).ghost, fun law => (law.change (b := b) rfl (.congr {})).ghost⟩
    have held : Ghost.idle.held b = (Ghost.idle.plus .operations 1).held d := rfl
    have port : b.port p = d.port p := rfl
    unfold Ghost.owed
    rw [held, port]
    cases p with
    | traffic => exact Nat.le_refl _
    | key => exact Nat.le_refl _
    | operations =>
      show _ + (_ + bit true) + 0 + _ ≤ _ + (_ + bit _) + (0 + 1) + _
      have one : bit true = 1 := rfl
      have tags : b.tunnel = d.tunnel := rfl
      rw [tags]
      omega

end Keeps

/-! ### The taking of a request -/

/-- Every request of the catalogue but DEVICE_RESTART reserves a place (11.7). -/
theorem places_pos {c : Instr} {p : Port} {code : Nat} {own : Device → Request → Taken}
    (h : requestOf c = some (p, code, own)) {row : CatalogueRow} (found : catalogue code = some row) : 1 ≤ row.places := by
  cases c <;> cases h <;> cases found <;> decide

theorem Device.of_takeable {d : Device} {p : Port} {code n : Nat} {q : Request} (h : d.takeable p code n = some q) :
    q.code = code ∧ (d.port p).canReserve n = true := by
  unfold Device.takeable at h
  split at h
  · split at h
    next may =>
      obtain rfl := Option.some.inj h
      exact may
    · exact nomatch h
  · exact nomatch h

namespace Keeps

variable (d : Device)

/-- Every request's own part keeps the invariants, with the places that the catalogue gives it (11.7). -/
theorem of_requestOf {c : Instr} {p : Port} {code : Nat} {own : Device → Request → Taken}
    (h : requestOf c = some (p, code, own)) {row : CatalogueRow} (found : catalogue code = some row)
    {q : Request} (named : q.code = code) (passes : commonTests p row q = none) : (own d q).Holds d p row.places := by
  obtain ⟨port, small⟩ := commonTests_none passes
  have plain : code ≠ 19 → q.device = false := fun other => decide_eq_false fun h => other (named.symm.trans h.1)
  cases c <;> cases h <;> cases found <;> try obtain rfl := List.mem_singleton.mp port
  case claimCells => exact claim d p q
  case releaseCells => exact release d p q
  case sendFrame => exact sendFrame d q
  case receiveFrame => exact receiveFrame d q
  case readService => exact Taken.Holds.tell d _ (by decide) nofun
  case sendDialogue => exact sendDialogue d q
  case installKey => exact installKey d q
  case discardNext => exact discardNext d q
  case readSlots => exact Taken.Holds.tell d _ (by decide) nofun
  case promote => exact promoteRequest d q
  case retirePrevious => exact retirePrevious d q
  case openTunnel => exact openTunnel d q (small rfl (plain (by decide)))
  case closeTunnel => exact closeTunnel d q (small rfl (plain (by decide)))
  case setHolds => exact setHolds d q
  case readTunnel => exact Taken.Holds.tell d _ (by decide) nofun
  case writeProfile => exact writeProfile d q
  case readProfile => exact tellProfile d q
  case readEngine => exact Taken.Holds.tell d _ (by decide) nofun
  case ackFault => exact ackFault d q
  case readCondition => exact Taken.Holds.tell d _ (by decide) nofun
  case readDeviceFaults => exact Taken.Holds.tell d _ (by decide) nofun
  case startProof => exact startRequest d q
  case stopProof => exact stopRequest d q
  case restoreTunnel => exact restore d q
  case writePattern => exact writePattern d q
  case readProof => exact Taken.Holds.tell d _ (by decide) nofun
  case setMonitor => exact setMonitor d q
  case freezeMonitors => exact freezeBank d q
  case thawMonitors => exact thawBank d q
  case clearMonitors => exact ⟨setBank d _, recordsFor_le (by decide) nofun⟩
  case readMonitors => exact Taken.Holds.tell d _ (by decide) nofun
  case saveSettings => exact save d q

theorem conclude (p : Port) (q : Request) {n : Nat} (some_ : 1 ≤ n) {x : Taken} (holds : x.Holds d p n) :
    Keeps (Ghost.idle.plus p n) d .idle (d.conclude p q n x) := by
  cases x with
  | refuse st => exact queueResponse d p _ ((recordsFor_spec n .empty).2.1 rfl ▸ some_)
  | quiet e r => exact holds.1.trans (queueResponse e p _ holds.2)
  | answer e r => exact (holds.1.trans (queueResponse e p _ holds.2)).trans (finish _)
  | wait e => exact holds.trans (finish e)

/-- A request refused once its places are reserved (R173). -/
theorem refused (p : Port) (q : Request) {n : Nat} (some_ : 1 ≤ n) (room : (d.port p).canReserve n = true) (st : Status) :
    Keeps .idle d .idle ((d.popRequest p n).conclude p q n (.refuse st)) :=
  (popRequest d p room).trans (conclude _ p q some_ trivial)

theorem takeRequest {c : Instr} {p : Port} {code : Nat} {own : Device → Request → Taken}
    (h : requestOf c = some (p, code, own)) : Keeps .idle d .idle (d.takeRequest p code own) := by
  unfold Device.takeRequest
  split
  · exact refl .idle d
  next row found =>
    have some_ := places_pos h found
    split
    · exact refl .idle d
    next q takeable =>
      obtain ⟨named, room⟩ := Device.of_takeable takeable
      simp only
      split
      · exact refused d p q some_ room _
      next passes => exact (popRequest d p room).trans (conclude _ p q some_ (of_requestOf _ h found named passes))

theorem takeUnknown (p : Port) : Keeps .idle d .idle (d.takeUnknown p) := by
  unfold Device.takeUnknown
  split
  · exact ite (fun may => refused d p _ (Nat.le_refl 1) may.2 _) fun _ => refl .idle d
  · exact refl .idle d

end Keeps

end Sys2Proof.Machine
end

/-! PROOF. Every invariant over a port reset: the effects in the other blocks first, after which the port owes no response,
then the port emptied (R29, R53, R96, R178, R179). -/
section

namespace Sys2Proof.Machine

-- One theorem at a time, so that the threads of the whole text stay within its memory.
set_option Elab.async false

/-! ### Frames marked at a reset (R96) -/

theorem Frame.fits_marked (f : Frame) (p : Port) : (f.marked p).Fits ↔ f.Fits := Iff.rfl

theorem Frame.owes_marked (f : Frame) (p q : Port) :
    (f.marked p).owes q = (f.owes q && !(f.submittedBy p)) := by
  unfold Frame.owes
  show (f.submittedBy q && !(f.orphan || f.submittedBy p)) = _
  rw [Bool.not_or, Bool.and_assoc]

/-- No response is owed for a frame that the port of a reset submitted. -/
theorem Frame.owes_marked_same (f : Frame) (p : Port) : (f.marked p).owes p = false := by
  rw [Frame.owes_marked]
  unfold Frame.owes
  cases f.submittedBy p <;> simp

theorem Frame.reserved_marked {f : Frame} {p : Port} (h : (f.marked p).reserved = true) : f.reserved = true :=
  ((Bool.and_eq_true ..).mp h).1

theorem Frame.told_marked {f : Frame} {p : Port} (h : f.reserved = true ∨ f.lost = true) :
    (f.marked p).reserved = true ∨ (f.marked p).lost = true := by
  show (f.reserved && !(decide (p = .traffic) && f.reserved)) = true
    ∨ (f.lost || decide (p = .traffic) && f.reserved) = true
  obtain h | h := h
  · rw [h]
    cases p
    · exact .inr (Bool.or_true _)
    · exact .inl rfl
    · exact .inl rfl
  · rw [h]
    exact .inr rfl

theorem Engine.waiting_marked (e : Engine) (p : Port) : (e.marked p).waiting = e.waiting.map (·.marked p) := by
  unfold Engine.waiting
  rw [List.map_append, List.map_append]
  rfl

theorem Ghost.held_marked (d : Device) (p : Port) :
    Ghost.idle.held { d with engine := d.engine.marked p } = (Ghost.idle.held d).map (·.marked p) := by
  show (d.engine.marked p).waiting ++ ((d.engine.inWork.map fun w => { w with frame := w.frame.marked p }).map
    (·.frame)).toList = (d.engine.waiting ++ (d.engine.inWork.map (·.frame)).toList).map (·.marked p)
  rw [List.map_append, d.engine.waiting_marked]
  cases d.engine.inWork <;> rfl

/-- The frames marked at a port reset stand; fewer responses and places are owed for them (R96). -/
theorem Keeps.marked (d : Device) (p : Port) : Keeps .idle d .idle { d with engine := d.engine.marked p } := by
  let b : Device := { d with engine := d.engine.marked p }
  have held : Ghost.idle.held b = (Ghost.idle.held d).map (·.marked p) := Ghost.held_marked d p
  show Keeps .idle d .idle b
  refine ⟨fun law => ?_, fun law => ?_, fun law => ?_, fun law => law.congr {}, fun law => ?_⟩
  · obtain ⟨ok, zero, waiting, inWork, -, apart, fits⟩ := law
    refine ⟨ok, zero, fun f is => ?_, fun w is => ?_, fun f is => absurd is List.not_mem_nil, ?_, fun f is => ?_⟩
    · rw [show b.engine.waiting = _ from d.engine.waiting_marked p] at is
      obtain ⟨f', mem, rfl⟩ := List.mem_map.mp is
      exact waiting f' mem
    · obtain ⟨w', work, rfl⟩ := Option.map_eq_some_iff.mp is
      exact inWork w' work
    · rw [held, List.flatMap_map]
      exact apart
    · rw [held] at is
      obtain ⟨f', mem, rfl⟩ := List.mem_map.mp is
      exact (f'.fits_marked p).mpr (fits f' mem)
  · refine law.change (fun q => ?_) (fun _ => Nat.le_refl _) (fun _ _ none_ => none_) fun f is => .inr fun c flow => ?_
    · have fewer : (Ghost.idle.held b).countP (·.owes q) ≤ (Ghost.idle.held d).countP (·.owes q) := by
        rw [held, List.countP_map]
        refine List.countP_mono_left fun f _ owes => ?_
        have owes : (f.marked p).owes q = true := owes
        rw [Frame.owes_marked] at owes
        exact ((Bool.and_eq_true ..).mp owes).1
      have same : b.owedElse q = d.owedElse q := by cases q <;> rfl
      have port : b.port q = d.port q := rfl
      unfold Ghost.owed
      rw [same, port]
      omega
    · rw [held] at is
      obtain ⟨f', mem, rfl⟩ := List.mem_map.mp is
      exact law.inbound f' mem c flow
  · obtain ⟨places, rest, told⟩ := law
    refine ⟨?_, fun f is => ?_, fun f is other => ?_⟩
    · have fewer : b.generatedReserved ≤ d.generatedReserved := by
        unfold Device.generatedReserved
        show (d.engine.control.map _).countP _
          + (match d.engine.inWork.map fun w => { w with frame := w.frame.marked p } with
          | some w => bit w.frame.reserved
          | none => 0) ≤ _
        refine Nat.add_le_add ?_ ?_
        · rw [List.countP_map]
          exact List.countP_mono_left fun f _ reserved => Frame.reserved_marked reserved
        · cases d.engine.inWork with
          | none => exact Nat.le_refl _
          | some w =>
            show bit (w.frame.marked p).reserved ≤ bit w.frame.reserved
            cases reserved : (w.frame.marked p).reserved with
            | false => exact Nat.zero_le _
            | true => exact Nat.le_of_eq (congrArg bit (Frame.reserved_marked reserved).symm)
      exact Nat.le_trans (Nat.add_le_add_left fewer _) places
    · have is : f ∈ d.engine.settle.map (·.marked p) ++ d.engine.bulk.map (·.marked p) := is
      rw [← List.map_append] at is
      obtain ⟨f', mem, rfl⟩ := List.mem_map.mp is
      obtain ⟨own, unreserved⟩ := rest f' mem
      exact ⟨own, Bool.eq_false_iff.mpr fun h => nomatch unreserved.symm.trans (Frame.reserved_marked h)⟩
    · have is : f ∈ Ghost.idle.held b := is
      rw [held] at is
      obtain ⟨f', mem, rfl⟩ := List.mem_map.mp is
      exact Frame.told_marked (told f' mem other)
  · refine ⟨law.keys.congr (b := b) { inWork := ?_ }, fun w is => (nomatch is)⟩
    show (d.engine.inWork.map fun w => { w with frame := w.frame.marked p }).map _ = _
    rw [Option.map_map]
    rfl

/-! ### Cells that a master owns -/

theorem SMap.get_of_mem {α : Type} [DecidableEq α] {d : α} {m : SMap α} (ok : SMap.wf d m = true) {e : Nat × α}
    (is : e ∈ m) :
    SMap.get d m e.1 = e.2 := by
  induction m with
  | nil => exact nomatch is
  | cons x m ih =>
    obtain ⟨-, above, ok⟩ := (SMap.wf_cons ..).mp ok
    obtain rfl | is := List.mem_cons.mp is
    · exact SMap.get_head ..
    · rw [SMap.get_tail _ _ _ _ _ (Nat.ne_of_lt (above e is)), ih ok is]

/-- A cell that a master owns is held by no frame (R15). -/
theorem CellStore.away_of_owned {c : CellStore} (ok : c.Ok) {o : Owner} {n : Nat} (is : n ∈ c.ownedBy o) :
    ¬ ((c.cell n).state = .queued ∨ (c.cell n).state = .inWork) := by
  obtain ⟨e, mem, rfl⟩ := List.mem_map.mp is
  obtain ⟨mem, state⟩ := List.mem_filter.mp mem
  have state := of_decide_eq_true state
  have same : c.cell e.1 = e.2 := SMap.get_of_mem ok.1 mem
  rw [same]
  rintro (h | h) <;> rw [h] at state <;> exact state.elim CellState.noConfusion CellState.noConfusion

theorem Keeps.freeOwned {g : Ghost} (d : Device) (p : Port) : Keeps g d g (d.freeCells (d.cellsOfPort p)) := by
  refine .storeOnly fun law => law.store (law.ok.release _) (law.zero.release _) rfl rfl fun n state => ?_
  show ((d.store.release (d.cellsOfPort p)).cell n).state = _
  rw [CellStore.cell_release, if_neg fun mem => ?_]
  unfold Device.cellsOfPort at mem
  split at mem
  · exact CellStore.away_of_owned law.ok mem state
  · exact nomatch mem

/-! ### Every tunnel changed -/

theorem Device.modTunnels_only (d : Device) (f : Tunnel → Tunnel) :
    { d.modTunnels f with tunnels := d.tunnels } = d := by
  unfold Device.modTunnels
  induction List.range Config.tunnelCount generalizing d with
  | nil => rfl
  | cons t ts ih => exact congrArg (fun e : Device => { e with tunnels := d.tunnels }) (ih (d.modTunnel t f))

/-- A port is emptied before or after every tunnel is changed. -/
theorem Device.modTunnels_modPort (d : Device) (f : Tunnel → Tunnel) (p : Port) (h : PortState → PortState) :
    (d.modPort p h).modTunnels f = (d.modTunnels f).modPort p h := by
  have one : ∀ (e : Device) (t : Nat), (e.modPort p h).modTunnel t f = (e.modTunnel t f).modPort p h := fun e t => by
    cases p <;> rfl
  unfold Device.modTunnels
  generalize List.range Config.tunnelCount = ts
  induction ts generalizing d with
  | nil => rfl
  | cons t ts ih =>
    rw [List.foldl_cons, List.foldl_cons, one]
    exact ih _

/-- What holds of every record after one change, and is kept by it, holds once every tunnel is changed. -/
theorem Device.modTunnels_all (d : Device) (f : Tunnel → Tunnel) {P : Tunnel → Prop} (makes : ∀ x, P (f x)) {t : Nat}
    (small : t < 480) : P ((d.modTunnels f).tunnel t) := by
  unfold Device.modTunnels
  have mem : t ∈ List.range Config.tunnelCount := List.mem_range.mpr small
  have keeps : ∀ (ts : List Nat) (e : Device), P (e.tunnel t) → P ((ts.foldl (fun d u => d.modTunnel u f) e).tunnel t) := by
    intro ts
    induction ts with
    | nil => exact fun e is => is
    | cons u ts ih =>
      intro e is
      refine ih _ ?_
      rw [Device.tunnel_modTunnel]
      split
      · exact makes _
      · exact is
  obtain ⟨before, after, split_⟩ := List.append_of_mem mem
  rw [split_, List.foldl_append, List.foldl_cons]
  refine keeps after _ ?_
  rw [Device.tunnel_modTunnel, if_pos rfl]
  exact makes _

/-! ### The effects of a reset -/

theorem Tunnel.Alike.trans {x y z : Tunnel} (h : x.Alike y) (k : y.Alike z) : x.Alike z :=
  ⟨⟨k.keys.flight.trans h.keys.flight, fun s => (k.keys.core s).trans (h.keys.core s), k.keys.ready.trans h.keys.ready⟩,
    h.life.trans k.life, k.tag.trans h.tag⟩

namespace Keeps

/-- The key flags of every key await a report again (R53). -/
theorem untold {g : Ghost} (d : Device) : Keeps g d g (d.modTunnels fun x =>
    [Slot.next, .current, .previous].foldl (fun x s => x.modKey s KeyRecord.untold) x) := by
  refine foldl _ (fun d t => modTunnel d t _ ?_) _ d
  have one : ∀ (x : Tunnel) (s : Slot), x.Alike (x.modKey s KeyRecord.untold) := fun x s => .modKey fun _ _ => rfl
  exact ((one _ .next).trans (one _ .current)).trans (one _ .previous)

/-- No job owes its response (R53). -/
theorem giveUpJobs {g : Ghost} (d : Device) :
    Keeps g d g { d with keys := { d.keys with jobs := d.keys.jobs.map Job.giveUp } } := by
  let b : Device := { d with keys := { d.keys with jobs := d.keys.jobs.map Job.giveUp } }
  show Keeps g d g b
  refine ⟨.congr {}, fun law => law.change (b := b) (fun p => ?_) (fun _ => Nat.le_refl _) (fun _ _ none_ => none_)
    (fun f is => .inl is), NoticesKept.congr {} (Nat.le_refl _), .congr {},
    fun law => BoundLaw.congr (a := d) (b := b) rfl { jobs := ?_ } law⟩
  · have none_ : b.keys.jobs.countP (fun j => j.owed.isSome) = 0 := by
      refine List.countP_eq_zero.mpr fun j is => ?_
      obtain ⟨j', -, rfl⟩ := List.mem_map.mp is
      exact Bool.false_ne_true
    have held : g.held b = g.held d := rfl
    have port : b.port p = d.port p := rfl
    have fewer : b.owedElse p ≤ d.owedElse p := by
      cases p with
      | traffic => exact Nat.le_refl _
      | key => exact Nat.le_trans (Nat.le_of_eq none_) (Nat.zero_le _)
      | operations => exact Nat.le_refl _
    unfold Ghost.owed
    rw [held, port]
    omega
  · exact List.map_map ..

/-- A save owes no response (R183). -/
theorem giveUpSave {g : Ghost} (d : Device) (fs : DeviceLatches) :
    Keeps g d g { d with faults := fs, saving := d.saving.map Save.giveUp } := by
  let b : Device := { d with faults := fs, saving := d.saving.map Save.giveUp }
  show Keeps g d g b
  refine ⟨.congr {}, fun law => law.change (b := b) (fun p => ?_) (fun _ => Nat.le_refl _) (fun _ _ none_ => none_)
    (fun f is => .inl is), NoticesKept.congr {} (Nat.le_refl _), .congr {}, .congr rfl {}⟩
  have held : g.held b = g.held d := rfl
  have port : b.port p = d.port p := rfl
  have fewer : b.owedElse p ≤ d.owedElse p := by
    cases p with
    | traffic => exact Nat.le_refl _
    | key => exact Nat.le_refl _
    | operations =>
      refine Nat.add_le_add_left (n := bit _) (m := bit _) ?_ _
      show bit ((d.saving.map Save.giveUp).bind (·.owed)).isSome ≤ _
      cases d.saving <;> exact Nat.zero_le _
  unfold Ghost.owed
  rw [held, port]
  omega

/-- The tag of a close is forgotten: its response is owed no longer (R179). -/
theorem untag {g : Ghost} (d : Device) (t : Nat) {f : Tunnel → Tunnel} (keys : ∀ x : Tunnel, x.SameKeys (f x))
    (life : ∀ x : Tunnel, x.SameLife (f x)) (tag : ∀ x : Tunnel, (f x).closeTag = none) :
    Keeps g d g (d.modTunnel t f) := by
  have fewer : ∀ u, ((d.modTunnel t f).tunnel u).closeTag.isSome = true → (d.tunnel u).closeTag.isSome = true :=
    d.eachTunnel t f (P := fun x y => y.closeTag.isSome = true → x.closeTag.isSome = true) (fun _ => id) fun h => by
      rw [tag] at h
      exact nomatch h
  refine ⟨.congr {}, fun law => law.change (b := d.modTunnel t f) (fun p => ?_) (fun _ => Nat.le_refl _)
    (fun u _ none_ => ?_) (fun f is => .inl is), NoticesKept.congr {} (Nat.le_refl _),
    .congr { tunnel := d.eachTunnel t f (P := Tunnel.SameLife) (fun _ => {}) (life _) },
    .congr rfl { tunnel := d.eachTunnel t f (P := Tunnel.SameKeys) (fun _ => {}) (keys _) }⟩
  · have held : g.held (d.modTunnel t f) = g.held d := rfl
    have port : (d.modTunnel t f).port p = d.port p := rfl
    have fewer : (d.modTunnel t f).owedElse p ≤ d.owedElse p := by
      cases p with
      | traffic => exact Nat.le_refl _
      | key => exact Nat.le_refl _
      | operations => exact Nat.add_le_add_right (List.countP_mono_left fun u _ => fewer u) _
    unfold Ghost.owed
    rw [held, port]
    omega
  · refine Option.not_isSome_iff_eq_none.mp fun is => ?_
    have := fewer u is
    rw [none_] at this
    exact nomatch this

theorem resetEffects (d : Device) (p : Port) : Keeps .idle d .idle (d.resetEffects p) := by
  cases p with
  | traffic => exact (marked d .traffic).trans (freeOwned _ .traffic)
  | key => exact (((marked d .key).trans (freeOwned _ .key)).trans (giveUpJobs _)).trans (untold _)
  | operations =>
    exact (giveUpSave d _).trans (foldl _ (fun d t => untag d t (fun _ => {}) (fun _ => {}) fun _ => rfl) _ _)

end Keeps

/-- What a reset of the key port makes of every tunnel (R53). -/
def Tunnel.keysUntold (x : Tunnel) : Tunnel :=
  [Slot.next, .current, .previous].foldl (fun x s => x.modKey s KeyRecord.untold) x

/-- What a reset of the operations port makes of every tunnel (R133, R179). -/
def Tunnel.unreported (x : Tunnel) : Tunnel :=
  { x with closeTag := none }.modCondition fun c => { c with latches := c.latches.mapAll Latch.unreport }

theorem Device.resetEffects_key (d : Device) : d.resetEffects .key =
    ({ ({ d with engine := d.engine.marked .key } : Device).freeCells (d.cellsOfPort .key) with
      keys := { d.keys with jobs := d.keys.jobs.map Job.giveUp } } : Device).modTunnels Tunnel.keysUntold := by
  unfold Device.resetEffects
  rfl

theorem Device.resetEffects_operations (d : Device) : d.resetEffects .operations =
    ({ d with faults := d.faults.mapAll Latch.unreport, saving := d.saving.map Save.giveUp } : Device).modTunnels
      Tunnel.unreported := by
  unfold Device.resetEffects
  rfl

/-- The effects of its reset leave a port no response owed (R96, R174, R179). -/
theorem Device.owed_resetEffects (d : Device) (p : Port) : Ghost.idle.owed (d.resetEffects p) p = 0 := by
  have none_ : ∀ b : Device, b.engine = d.engine.marked p → (Ghost.idle.held b).countP (·.owes p) = 0 := by
    intro b engine
    have held : Ghost.idle.held b = (Ghost.idle.held d).map (·.marked p) := by
      rw [← Ghost.held_marked]
      show b.engine.waiting ++ (b.engine.inWork.map (·.frame)).toList = _
      rw [engine]
      rfl
    rw [held]
    refine List.countP_eq_zero.mpr fun f is => ?_
    obtain ⟨f', -, rfl⟩ := List.mem_map.mp is
    rw [Frame.owes_marked_same]
    exact Bool.false_ne_true
  unfold Ghost.owed
  cases p with
  | traffic => exact none_ _ rfl
  | key =>
    rw [Device.resetEffects_key]
    generalize start : ({ ({ d with engine := d.engine.marked .key } : Device).freeCells (d.cellsOfPort .key) with
      keys := { d.keys with jobs := d.keys.jobs.map Job.giveUp } } : Device) = c
    have only := c.modTunnels_only Tunnel.keysUntold
    generalize c.modTunnels Tunnel.keysUntold = e at only
    have engine : e.engine = d.engine.marked .key := (congrArg (·.engine) only :).trans (start ▸ rfl)
    have jobs : e.keys.jobs = d.keys.jobs.map Job.giveUp := (congrArg (·.keys.jobs) only :).trans (start ▸ rfl)
    rw [none_ _ engine]
    show 0 + e.keys.jobs.countP _ = 0
    rw [jobs, Nat.zero_add]
    refine List.countP_eq_zero.mpr fun j is => ?_
    obtain ⟨j', -, rfl⟩ := List.mem_map.mp is
    exact Bool.false_ne_true
  | operations =>
    rw [Device.resetEffects_operations]
    generalize start :
      ({ d with faults := d.faults.mapAll Latch.unreport, saving := d.saving.map Save.giveUp } : Device) = c
    have only := c.modTunnels_only Tunnel.unreported
    have untagged : ∀ t, t < 480 → ((c.modTunnels Tunnel.unreported).tunnel t).closeTag = none := fun t small =>
      c.modTunnels_all Tunnel.unreported (P := fun x => x.closeTag = none) (fun _ => rfl) small
    generalize c.modTunnels Tunnel.unreported = e at only untagged
    have saving : e.saving = d.saving.map Save.giveUp := (congrArg (·.saving) only :).trans (start ▸ rfl)
    have held : (Ghost.idle.held e).countP (·.owes .operations) = 0 :=
      List.countP_eq_zero.mpr fun f _ owes => by
        unfold Frame.owes Frame.submittedBy at owes
        simp at owes
    have tags : (List.range 480).countP (fun t => (e.tunnel t).closeTag.isSome) = 0 :=
      List.countP_eq_zero.mpr fun t is some_ => by
        rw [untagged t (List.mem_range.mp is)] at some_
        exact nomatch some_
    rw [held]
    show 0 + ((List.range 480).countP _ + bit (e.saving.bind (·.owed)).isSome) = 0
    rw [tags, saving]
    cases d.saving <;> rfl

/-- A port that owes no response is emptied (R178). -/
theorem Keeps.emptyPort (d : Device) (p : Port) (none_ : Ghost.idle.owed d p = 0) :
    Keeps .idle d .idle (d.modPort p PortState.emptied) :=
  .changePort (g := .idle) (s := Ghost.idle.spare) d p _ (fun _ _ => rfl)
    (fun _ => ⟨Nat.le_of_eq none_, Nat.zero_le _⟩) (.inl (Nat.zero_le _))

/-- A port is emptied before or after the effects of its reset are made. -/
theorem Device.resetEffects_modPort (d : Device) (p : Port) (f : PortState → PortState) :
    (d.modPort p f).resetEffects p = (d.resetEffects p).modPort p f := by
  cases p with
  | traffic => rfl
  | key =>
    rw [Device.resetEffects_key, Device.resetEffects_key, ← Device.modTunnels_modPort]
    rfl
  | operations =>
    rw [Device.resetEffects_operations, Device.resetEffects_operations, ← Device.modTunnels_modPort]
    rfl

theorem Device.port_offer (d : Device) (r : FaultRef) (p : Port) :
    ((d.offer r).port p).responses = (d.port p).responses ∧ ((d.offer r).port p).reserved = (d.port p).reserved := by
  have device : ∀ k, ((d.offerDevice k).port p).responses = (d.port p).responses
      ∧ ((d.offerDevice k).port p).reserved = (d.port p).reserved := by
    intro k
    unfold Device.offerDevice
    split
    · split
      · cases p <;> exact ⟨rfl, rfl⟩
      · exact ⟨rfl, rfl⟩
    · exact ⟨rfl, rfl⟩
  have tunnel : ∀ t k, ((d.offerTunnel t k).port p).responses = (d.port p).responses
      ∧ ((d.offerTunnel t k).port p).reserved = (d.port p).reserved := by
    intro t k
    unfold Device.offerTunnel
    split
    · split
      · cases p <;> exact ⟨rfl, rfl⟩
      · exact ⟨rfl, rfl⟩
    · exact ⟨rfl, rfl⟩
  cases r with
  | device k => exact device k
  | tunnel t k => exact tunnel t k

/-- The offers of a reset leave a port's responses and its reserved places. -/
theorem Device.port_resetOffers (d : Device) (p : Port) :
    ((d.resetOffers p).port p).responses = (d.port p).responses
      ∧ ((d.resetOffers p).port p).reserved = (d.port p).reserved := by
  cases p with
  | traffic => exact ⟨rfl, rfl⟩
  | key => exact ⟨rfl, rfl⟩
  | operations =>
    unfold Device.resetOffers Device.faultScan
    induction d.waitingFaults.take (noticePlaces .operations) generalizing d with
    | nil => exact ⟨rfl, rfl⟩
    | cons r rs ih =>
      obtain ⟨responses, reserved⟩ := ih (d.offer r)
      obtain ⟨responses', reserved'⟩ := d.port_offer r .operations
      exact ⟨responses.trans responses', reserved.trans reserved'⟩

theorem Keeps.resetOffers {g : Ghost} (d : Device) (p : Port) : Keeps g d g (d.resetOffers p) := by
  cases p with
  | traffic => exact refl g d
  | key => exact refl g d
  | operations => exact faultScan d _

theorem Keeps.portReset (d : Device) (p : Port) (tag : BitVec 16) : Keeps .idle d .idle (d.portReset p tag) := by
  unfold Device.portReset
  simp only
  rw [Device.resetEffects_modPort]
  generalize (d.buildDue || (decide (p = .traffic) && d.trafficPlaces)) = due
  refine trans ?_ (finish _)
  have effects := (setDue (g := .idle) d due).trans (resetEffects _ p)
  have owed := Device.owed_resetEffects { d with buildDue := due } p
  generalize ({ d with buildDue := due } : Device).resetEffects p = e at effects owed
  have emptied := (effects.trans (emptyPort e p owed)).trans (resetOffers _ p)
  obtain ⟨responses, reserved⟩ := (e.modPort p PortState.emptied).port_resetOffers p
  generalize (e.modPort p PortState.emptied).resetOffers p = r at emptied responses reserved
  have port : (e.modPort p PortState.emptied).port p = (e.port p).emptied := by
    rw [Device.port_modPort, if_pos rfl]
  rw [port] at responses reserved
  exact emptied.trans (queueUnreserved r p _ responses reserved)

end Sys2Proof.Machine
end

/-! PROOF. Every invariant over the expiries, the accesses to a window, loads, saves and resets, and over every step: what
O8, O9, O11, O12 and O13 say (R15, R51, R100, R140, R173, R185). -/
section

namespace Sys2Proof.Machine

-- One theorem at a time, so that the threads of the whole text stay within its memory.
set_option Elab.async false

/-- A cell whose write is stored is not FREE (R22, R23). -/
theorem Device.used_of_storesWrite {d : Device} {next : Option Instr} {p : Port} {n : Nat}
    (stores : d.storesWrite next p n = true) : (d.store.cell n).state ≠ .free := by
  unfold Device.storesWrite at stores
  obtain may | works := (Bool.or_eq_true ..).mp stores
  · unfold CellStore.touchable at may
    split at may
    · obtain is | is := (Bool.or_eq_true ..).mp may <;> rw [of_decide_eq_true is] <;> exact CellState.noConfusion
    · exact nomatch may
  · rw [of_decide_eq_true ((Bool.and_eq_true ..).mp works).1]
    exact CellState.noConfusion

namespace Keeps

variable (d : Device)

/-! ### Expiries (R185) -/

theorem graceEnds (t : Nat) : Keeps .idle d .idle (d.graceEnds t) := by
  unfold Device.graceEnds
  refine ite (fun _ => ?_) fun _ => refl .idle d
  exact ((modKey d t .previous (fun k => { k with graceDeadline := none }) fun _ _ => rfl).trans
    (retireKey _ t .previous fun h => (nomatch h))).trans (finish _)

/-- The hold of a tunnel ends: the tunnel joins the retry queue (R140). -/
theorem holdExpires (t : Nat) : Keeps .idle d .idle (d.holdExpires t) := by
  unfold Device.holdExpires
  refine ite (fun due => trans ?_ (finish _)) fun _ => refl .idle d
  have runs : (d.tunnel t).holdDeadline = some d.clock := (d.due_iff _).mp due
  have isolated : RetryLaw .idle d → (d.tunnel t).state = .isolated := fun law =>
    (law.hold t (by rw [runs]; rfl)).resolve_right fun h => (nomatch h)
  refine rejoin d rfl (fun law => ⟨fun waits => ?_, fun retries => ?_⟩) (fun law => ?_) isolated rfl {} rfl
  · exact nomatch runs.symm.trans (law.member t waits).2
  · obtain ⟨r, running, purpose, same⟩ := retries
    exact nomatch (same ▸ runs).symm.trans (law.running r running purpose).2.1
  · rw [isolated law]
    exact TunnelState.noConfusion

theorem echoExpires : Keeps .idle d .idle d.echoExpires := by
  unfold Device.echoExpires
  split
  next r running =>
    split
    · exact ite (fun _ => (proofMiss d running _ _ _).trans (finish _)) fun _ => refl .idle d
    · exact refl .idle d
    · exact refl .idle d
  · exact refl .idle d

theorem expire (x : Due) : Keeps .idle d .idle (d.expire x) := by
  cases x with
  | grace t => exact graceEnds d t
  | softAge t => exact ite (fun _ => (softAge d t).trans (finish _)) fun _ => refl .idle d
  | hardAge t => exact ite (fun _ => (hardAge d t).trans (finish _)) fun _ => refl .idle d
  | interval t => exact ite (fun _ => (intervalEnds d t).trans (finish _)) fun _ => refl .idle d
  | silence t => exact ite (fun _ => (silenceEnds d t).trans (finish _)) fun _ => refl .idle d
  | keepalive t => exact ite (fun _ => (keepaliveEnds d t).trans (finish _)) fun _ => refl .idle d
  | hold t => exact holdExpires d t
  | echo => exact echoExpires d

theorem expireDue : Keeps .idle d .idle d.expireDue := by
  unfold Device.expireDue
  split
  · exact refl .idle d
  · exact trans (b := { d with draws := d.draws + 1 }) .aside (foldl _ (fun d x => expire d x) _ _)

theorem advanceClock : Keeps .idle d .idle d.advanceClock := by
  unfold Device.advanceClock
  refine trans ?_ ((freezeOnOverflow _).trans (expireDue _))
  unfold Device.countMicrosecond
  split
  · exact .aside
  · exact .aside

/-! ### The window (R171..R177) -/

/-- A change of a port's buffer, requests, word and latches. -/
theorem modPortSame {g : Ghost} (p : Port) (f : PortState → PortState)
    (same : (f (d.port p)).reserved = (d.port p).reserved ∧ (f (d.port p)).responses = (d.port p).responses
      ∧ (f (d.port p)).notices = (d.port p).notices := by exact ⟨rfl, rfl, rfl⟩) : Keeps g d g (d.modPort p f) :=
  modPort d p f same.1 (Nat.le_of_eq (congrArg _ same.2.1)) (.inl (Nat.le_of_eq (congrArg _ same.2.2)))

theorem post (p : Port) (w : BusWord) : Keeps .idle d .idle (d.post p w) := by
  obtain ⟨tag, same⟩ | ⟨f, same, kept⟩ := d.post_cases p w
  · rw [same]
    exact portReset d p tag
  · rw [same]
    obtain ⟨notices, responses, reserved, -⟩ := kept (d.port p)
    exact modPortSame d p f ⟨reserved, responses, notices⟩

theorem readNotice (p : Port) (off : Nat) : Keeps .idle d .idle (d.readNotice p off) := by
  unfold Device.readNotice
  simp only
  refine (modPortSame d p _).trans (ite (fun _ => ?_) fun _ => refl .idle _)
  have taken := modPort (g := .idle) (d.returnWord p (wordOf (slice (d.port p).noticeArea (off - 0x40) 4))) p
    (fun x => { x with notices := x.notices.tail }) rfl (Nat.le_refl _) (.inl (by simp))
  refine taken.trans ?_
  cases p with
  | traffic => exact (setDue _ true).trans (finish _)
  | key => exact (keyFlagScan _ 1).trans (finish _)
  | operations => exact ((faultScan _ 1).trans (retryStartTest _)).trans (finish _)

theorem readResponse (p : Port) (off : Nat) : Keeps .idle d .idle (d.readResponse p off) := by
  unfold Device.readResponse
  simp only
  exact (modPortSame d p _).trans (ite (fun _ => modPort _ p _ rfl (by simp) (.inl (Nat.le_refl _))) fun _ => refl .idle _)

theorem readStatus (p : Port) : Keeps .idle d .idle (d.readStatus p) := (modPortSame d p _).trans (modPortSame _ p _)

theorem readWindow (p : Port) (off : Nat) (next : Option Instr) : Keeps .idle d .idle (d.readWindow p off next) := by
  unfold Device.readWindow
  refine ite (fun _ => modPortSame d p _) fun _ => ite (fun _ => readResponse d p off) fun _ => ite
    (fun _ => readNotice d p off) fun _ => ite (fun _ => readStatus d p) fun _ => ite (fun _ => ?_) fun _ =>
      modPortSame d p _
  exact ite (fun _ => modPortSame d p _) fun _ => (modPortSame d p _).trans (modPortSame _ p _)

/-- Bytes written inside a cell that is not FREE (R21, R22). -/
theorem writeBytes {g : Ghost} {n a : Nat} {bs : List Byte} (inside : ∀ x, a ≤ x → x < a + bs.length → x / 256 = n)
    (used : (d.store.cell n).state ≠ .free) :
    Keeps g d g { d with store := { d.store with bytes := d.store.bytes.writeFrom a bs } } := by
  refine .storeOnly fun law => law.store (law.ok.bytes _ (Memory.wf_writeFrom _ _ _ law.ok.2.1))
    (fun m b free small => ?_) rfl rfl fun _ _ => rfl
  show (d.store.bytes.writeFrom a bs).read (m * 256 + b) = 0
  have free : (d.store.cell m).state = .free := free
  have outside : m * 256 + b < a ∨ a + bs.length ≤ m * 256 + b := by
    refine Classical.byContradiction fun hits => ?_
    have := inside (m * 256 + b) (by omega) (by omega)
    exact used ((show m = n by omega) ▸ free)
  rw [Memory.read_writeFrom _ _ _ _ outside]
  exact law.zero m b free small

theorem writeCell (p : Port) {off : Nat} (aligned : off % 4 = 0) (inside : 0x80000 ≤ off) (w : BusWord)
    (next : Option Instr) :
    Keeps .idle d .idle (d.writeCell p off w next) := by
  unfold Device.writeCell
  refine ite (fun stores => writeBytes d (n := windowCell off) (fun x low high => ?_) (Device.used_of_storesWrite stores))
    fun _ => modPortSame d p _
  rw [length_beBytes] at high
  unfold windowCell
  show x / 256 = (off - 0x80000) / 256
  omega

theorem writeWindow (p : Port) {off : Nat} (aligned : off % 4 = 0) (w : BusWord) (next : Option Instr) :
    Keeps .idle d .idle (d.writeWindow p off w next) := by
  unfold Device.writeWindow
  refine ite (fun _ => modPortSame d p _) fun _ => ite (fun _ => post d p w) fun _ => ite (fun window => ?_) fun _ =>
    refl .idle d
  exact writeCell d p aligned (of_decide_eq_true ((Bool.and_eq_true ..).mp window).2) w next

/-! ### Loads, saves and resets (R181..R184) -/

theorem setReady {g : Ghost} : Keeps g d g d.setReady :=
  .aside (places := { reserved := fun p => by cases p <;> rfl, responses := fun p => by cases p <;> exact Nat.le_refl _ })

theorem useItems {g : Ghost} (x : Items) : Keeps g d g (d.useItems x) := .aside

theorem loadEnds : Keeps .idle d .idle d.loadEnds := by
  unfold Device.loadEnds
  refine ite (fun _ => ?_) fun _ => refl .idle d
  have loaded : Keeps .idle d .idle { d with loading := false } := .aside
  exact ite (fun _ => (loaded.trans (useItems _ _)).trans (setReady _)) fun _ =>
    (((loaded.trans (useItems _ _)).trans (deviceFault _ _ _)).trans (setReady _)).trans (closeEvent _)

/-- The save that runs ends: its response is owed no longer (R174, R183). -/
theorem saved {g : Ghost} {s : Save} (saving : d.saving = some s) (i : Image) :
    Keeps g d (g.plus .operations (bit s.owed.isSome)) { d with image := i, saving := none } := by
  let b : Device := { d with image := i, saving := none }
  show Keeps g d (g.plus .operations (bit s.owed.isSome)) b
  refine ⟨fun law => (law.congr (b := b) {}).ghost, fun law => law.change (b := b) (fun p => ?_) (fun _ => Nat.le_refl _)
    (fun _ _ none_ => none_) fun f is => .inl is, NoticesKept.congr {} (Nat.le_refl _),
    fun law => (law.congr (b := b) {}).ghost, fun law => (law.change (b := b) rfl (.congr {})).ghost⟩
  have held : (g.plus .operations (bit s.owed.isSome)).held b = g.held d := rfl
  have port : b.port p = d.port p := rfl
  unfold Ghost.owed
  rw [held, port]
  cases p with
  | traffic => exact Nat.le_refl _
  | key => exact Nat.le_refl _
  | operations =>
    show _ + (_ + 0) + (g.spare .operations + bit s.owed.isSome) + _ ≤ _ + (_ + bit (d.saving.bind (·.owed)).isSome) + _ + _
    rw [saving]
    have tags : b.tunnel = d.tunnel := rfl
    have owed : (some s).bind (·.owed) = s.owed := rfl
    rw [tags, owed]
    omega

theorem saveEnds : Keeps .idle d .idle d.saveEnds := by
  unfold Device.saveEnds
  split
  · exact refl .idle d
  next s saving =>
    have ended := saved (g := .idle) d saving ⟨s.copy, true⟩
    simp only
    cases owed : s.owed with
    | none =>
      rw [owed] at ended
      exact ended.trans (waivePlus _ _ _)
    | some tag =>
      rw [owed] at ended
      exact ended.trans (answerDeferred _ _ _ _ _ _ _)

/-- What a reset leaves meets every invariant (R182, R184). -/
theorem emptied {e : Device} (empty : e.Emptied) (ok : e.store.Ok) : Keeps .idle d .idle e :=
  ⟨fun _ => (framesLaw_iff e).mpr ⟨ok, empty.freeZero, empty.framesHold⟩, fun _ => (placesLaw_iff e).mpr empty.placesKept,
    fun _ => empty.noticesKept, fun _ => (retryLaw_iff e).mpr empty.retryKept, fun _ => (boundLaw_iff e).mpr empty.keysKept⟩

theorem powerReset : Keeps .idle d .idle d.powerReset :=
  emptied d (Device.emptied_powerOn _ _) CellStore.ok_empty

theorem takeRestart (p : Port) : Keeps .idle d .idle (d.takeRestart p) := by
  obtain same | ⟨q, st, room, same⟩ | same := d.takeRestart_cases p
  · rw [same]
    exact emptied d d.emptied_restart CellStore.ok_empty
  · rw [same]
    exact refused d p q (Nat.le_refl 1) room st
  · rw [same]
    exact refl .idle d

/-! ### Every command and every step -/

theorem runOther (next : Option Instr) (c : Instr) (aligned : ∀ off, accessOffset c = some off → off % 4 = 0) :
    Keeps .idle d .idle (d.runOther next c) := by
  cases c
  case powerOnReset => exact powerReset d
  case loadComplete => exact loadEnds d
  case saveComplete => exact saveEnds d
  case deviceClockAdvance => exact advanceClock d
  case requestPost p w => exact post d p w
  case portWindowWrite p off w => exact writeWindow d p (aligned off rfl) w next
  case responseRead p off => exact readWindow d p off next
  case noticeRead p off => exact readWindow d p off next
  case statusRead p => exact readStatus d p
  case cellWindowAccess p off write =>
    cases write with
    | none => exact readWindow d p off next
    | some w => exact writeWindow d p (aligned off rfl) w next
  case deviceRestart p => exact takeRestart d p
  case portReset p tag => exact portReset d p tag
  case derivationComplete => exact completeJob d
  case outboundCompletion => exact outboundEnds d
  case inboundCompletion => exact inboundEnds d
  case graceExpiry t => exact expire d (.grace t)
  case softAgeExpiry t => exact expire d (.softAge t)
  case hardAgeExpiry t => exact expire d (.hardAge t)
  case intervalExpiry t => exact expire d (.interval t)
  case silenceExpiry t => exact expire d (.silence t)
  case keepaliveExpiry t => exact expire d (.keepalive t)
  case holdExpiry t => exact expire d (.hold t)
  case echoDeadlineExpiry => exact expire d .echo
  case retryStart => exact (retryStartTest d).trans (finish _)
  case proofBuildAttempt => exact (buildAttempt d).trans (finish _)
  case unknownRequestCode p => exact takeUnknown d p
  all_goals exact refl .idle d

theorem run (next : Option Instr) (c : Instr) (aligned : ∀ off, accessOffset c = some off → off % 4 = 0) :
    Keeps .idle d .idle (d.run next c) := by
  unfold Device.run
  split
  next p code own request => exact takeRequest d request
  · exact runOther d next c aligned

end Keeps

/-- An access that has a next state is aligned (R171). -/
theorem exec_aligned {c : Instr} {s t : State} (h : exec c s = .next t) (off : Nat) (is : accessOffset c = some off) :
    off % 4 = 0 := by
  rw [exec_eq_run, is] at h
  simp only [access] at h
  split at h
  · exact nomatch h
  · split at h
    · exact nomatch h
    next aligned => exact Classical.not_not.mp aligned

/-- Every step keeps every invariant. -/
theorem Keeps.step {s t : State} (h : Machine.step s = .next t) : Keeps .idle s.dev .idle t.dev := by
  unfold Machine.step at h
  split at h
  · cases h
    exact refl .idle _
  next c rest _ =>
    rw [exec_next h]
    exact run s.dev _ c (exec_aligned h)

/-- Settles O8. -/
theorem stepsKeepTheCellStoreInOrder : Obligations.StepsKeepTheCellStoreInOrder :=
  ⟨fun _ _ st ok => step_keeps (P := fun d => d.store.Ok) (fun d next c h => d.run_store next c h) st ok,
    fun s t st kept => (boundLaw_iff t.dev).mp ((Keeps.step st).keys ((boundLaw_iff s.dev).mpr kept))⟩

/-- Settles O9. -/
theorem stepsKeepQueuesWithinCapacity : Obligations.StepsKeepQueuesWithinCapacity := by
  refine ⟨fun _ _ st bounded => step_keeps (P := Device.Bounded) (fun d next c h => d.run_bounded next c h) st bounded,
    fun s t st kept => (retryLaw_iff t.dev).mp ((Keeps.step st).retry ((retryLaw_iff s.dev).mpr kept)),
    fun d kept t waits => ?_⟩
  obtain ⟨-, member, -, -, -, beyond⟩ := kept
  refine Classical.byContradiction fun high => ?_
  exact nomatch (member t waits).1.symm.trans (beyond t (Nat.not_lt.mp high))

/-- Settles O11. -/
theorem stepsKeepFreeCellsZero : Obligations.StepsKeepFreeCellsZero := fun s t st ok zero hold =>
  ((framesLaw_iff t.dev).mp ((Keeps.step st).frames ((framesLaw_iff s.dev).mpr ⟨ok, zero, hold⟩))).2

/-- Settles O12. -/
theorem stepsKeepAPlaceForEveryResponse : Obligations.StepsKeepAPlaceForEveryResponse := fun s t st kept =>
  (placesLaw_iff t.dev).mp ((Keeps.step st).places ((placesLaw_iff s.dev).mpr kept))

/-- Settles O13. -/
theorem stepsKeepGeneratedPlaces : Obligations.StepsKeepGeneratedPlaces := fun _ _ st kept => (Keeps.step st).notices kept

end Sys2Proof.Machine
end
